-- ==== Sys2Proof/Word.lean ====
section
/-!
DEFINITION. The byte, the transaction sequencer's positions, the spec's unknown value and its refusal and fault
codes: the vocabulary the syntax, the decoder and the machine share.
-/

namespace Sys2Proof

/-- A chip byte: bit 0 is the first bit on the serial line (R9, R11, R53). -/
abbrev Byte := BitVec 8

/-- A value that the spec writes `⊥` until some command sets it (R13). `bot` is the spec's `⊥`: it is no number,
and a rule that would compute with it refuses or faults. -/
inductive Latch (α : Type) where
  | bot
  | known (v : α)
deriving DecidableEq, Repr

/-- `SEQ`, the position inside the current transaction (R31). -/
inductive Seq where
  | idle
  | expectCmd
  | closed
  | addrData
  /-- `k` key bytes were read so far. -/
  | keyRead (k : Fin 5)
deriving DecidableEq, Repr

/-- The refusal codes 1 to 15 (R281). -/
inductive RefusalCode where
  | reservedCmd
  | reservedBits
  | fixedMode
  | testMode
  | trailingByte
  | writeOverrun
  | modeUnknown
  | readOverrun
  | readMosi
  | xferIdle
  | csProtocol
  | partialByte
  | shadowUnknown
  | iconGrid
  | unmodelledOp
deriving DecidableEq, Repr

/-- The fault codes (R282): `unwrittenState` is code 101. -/
inductive FaultCode where
  | unwrittenState
deriving DecidableEq, Repr

end Sys2Proof
end

