-- ==== Sys2Proof/Syntax.lean ====
section
/-!
DEFINITION. The instructions: one constructor per row of spec/opcode_table.json, its operands the row's fields. A
refused row carries the bits its pattern leaves open, so that every byte it covers is one term.
-/

namespace Sys2Proof

/-- One byte of a transaction, by the row of the opcode table it belongs to (R80, R83 to R87, R89). -/
inductive Instr where
  /-- `DSET.W`, 0x40 (R131). -/
  | dsetW
  /-- `DSET.R`, 0x42 (R132). -/
  | dsetR
  /-- `ADDR a`, 0xC0 | a (R136). -/
  | addr (a : BitVec 4)
  /-- `DCTRL n, b`, 0x80 | n << 3 | b (R138). -/
  | dctrl (n : Bool) (b : BitVec 3)
  /-- `DATA d`, any byte after `ADDR` (R161). -/
  | data (d : BitVec 8)
  /-- `RDKEY`, 0xFF after `DSET.R` (R181). -/
  | rdkey
  /-- Command byte of class 00; `x` is bits 5:0 (R140). -/
  | reservedClass00 (x : BitVec 6)
  /-- `DSET` with bit 0 set; `x` is bits 5:1 (R135). -/
  | dsetReservedBit0 (x : BitVec 5)
  /-- `DSET` with bits 5:4 = `s` not 00; `x` is bits 3:0 (R135). -/
  | dsetReservedBits54 (s : BitVec 2) (x : BitVec 4)
  /-- `DSET` with `FIX` set; `t` is `TEST`, `r` is `RD` (R133). -/
  | dsetFixedAddress (t r : Bool)
  /-- `DSET` with `TEST` set and `FIX` clear; `r` is `RD` (R134). -/
  | dsetTestMode (r : Bool)
  /-- `ADDR` with bits 5:4 = `s` not 00; `a` is bits 3:0 (R137). -/
  | addrReservedBits54 (s : BitVec 2) (a : BitVec 4)
  /-- `DCTRL` with bits 5:4 = `s` not 00; `n` is bit 3, `b` bits 2:0 (R139). -/
  | dctrlReservedBits54 (s : BitVec 2) (n : Bool) (b : BitVec 3)
deriving DecidableEq, Repr

end Sys2Proof
end

