-- ==== Sys2Proof/WellFormed.lean ====
section
/-!
DEFINITION. Which terms of `Instr` are instructions of the opcode table: the conditions a row's note puts on the bits
its pattern leaves open.
-/

namespace Sys2Proof

/-- The rows for reserved bits 5:4 apply only when those bits are not 00 (spec/opcode_table.json, notes of these
rows). A `DSET` byte with bit 0 set belongs to the row before it (R135), so in the bits 5:4 row bit 0 is clear. -/
def Instr.wellFormed : Instr → Bool
  | .dsetW => true
  | .dsetR => true
  | .addr _ => true
  | .dctrl _ _ => true
  | .data _ => true
  | .rdkey => true
  | .reservedClass00 _ => true
  | .dsetReservedBit0 _ => true
  | .dsetReservedBits54 s x => s != 0 && !x.getLsbD 0
  | .dsetFixedAddress _ _ => true
  | .dsetTestMode _ => true
  | .addrReservedBits54 s _ => s != 0
  | .dctrlReservedBits54 s _ _ => s != 0

/-- Is an instruction of the opcode table. -/
abbrev Instr.WellFormed (i : Instr) : Prop := i.wellFormed = true

end Sys2Proof
end

