-- ==== Sys2Proof/Decode.lean ====
section
/-!
DEFINITION. The decoder, total on every byte at every position of a transaction and refusing by the spec's codes (R90,
R91, R284), the encoder written from the same formats (R83 to R89), and the opcode table's match and mask.
-/

namespace Sys2Proof

/-- Bits 7:6 of a command byte, its class (R81, R82). -/
def classBits (c : Byte) : BitVec 2 := c.extractLsb' 6 2
/-- Bits 5:4 of a command byte, reserved in every class (R83 to R85). -/
def reservedBits (c : Byte) : BitVec 2 := c.extractLsb' 4 2
/-- The address field of an address-setting command (R84, R88). -/
def addrField (c : Byte) : BitVec 4 := c.extractLsb' 0 4
/-- The brightness field of a display-control command (R85, R88). -/
def brightnessField (c : Byte) : BitVec 3 := c.extractLsb' 0 3
/-- `ON` of a display-control command, `TEST` of a data-setting command: bit 3 (R83, R85, R88). -/
def bit3 (c : Byte) : Bool := c.getLsbD 3
/-- `FIX`, bit 2 of a data-setting command (R83, R88). -/
def fixBit (c : Byte) : Bool := c.getLsbD 2
/-- `RD`, bit 1 of a data-setting command (R83, R88). -/
def rdBit (c : Byte) : Bool := c.getLsbD 1

/-- The data-setting class: reserved bits first, then `FIX`, then `TEST` (R91, R284). -/
def decodeDset (c : Byte) : Instr :=
  if c.getLsbD 0 then .dsetReservedBit0 (c.extractLsb' 1 5)
  else if reservedBits c ≠ 0 then .dsetReservedBits54 (reservedBits c) (c.extractLsb' 0 4)
  else if fixBit c then .dsetFixedAddress (bit3 c) (rdBit c)
  else if bit3 c then .dsetTestMode (rdBit c)
  else if rdBit c then .dsetR
  else .dsetW

/-- The display-control class (R85, R91). -/
def decodeDctrl (c : Byte) : Instr :=
  if reservedBits c ≠ 0 then .dctrlReservedBits54 (reservedBits c) (bit3 c) (brightnessField c)
  else .dctrl (bit3 c) (brightnessField c)

/-- The address-setting class (R84, R91). -/
def decodeAddr (c : Byte) : Instr :=
  if reservedBits c ≠ 0 then .addrReservedBits54 (reservedBits c) (addrField c)
  else .addr (addrField c)

/-- A command byte, the first of a transaction: the class by bits 7:6 (R82, R91). -/
def decodeCommand (c : Byte) : Instr :=
  if classBits c = 0 then .reservedClass00 (c.extractLsb' 0 6)
  else if classBits c = 1 then decodeDset c
  else if classBits c = 2 then decodeDctrl c
  else decodeAddr c

/-- The byte `m` received at position `q`: its role is told by `SEQ` alone (R90, R113). A byte that has no role there
is refused by the code R113, R181 and R284 give: a fifth read byte is `READ_OVERRUN` before its value is looked at, and
where it is 0xFF it is the row `RDKEY`, whose own rule refuses it so. -/
def decode (q : Seq) (m : Byte) : Except RefusalCode Instr :=
  match q with
  | .idle => .error .xferIdle
  | .expectCmd => .ok (decodeCommand m)
  | .closed => .error .trailingByte
  | .addrData => .ok (.data m)
  | .keyRead k =>
    if m = 0xFF then .ok .rdkey
    else if k.val = 4 then .error .readOverrun
    else .error .readMosi

/-- The chip byte of an instruction (R83 to R87, R89, R93). -/
def encode : Instr → Byte
  | .dsetW => 0x40
  | .dsetR => 0x42
  | .addr a => 0xC#4 ++ a
  | .dctrl n b => 0x8#4 ++ (BitVec.ofBool n ++ b)
  | .data d => d
  | .rdkey => 0xFF
  | .reservedClass00 x => 0#2 ++ x
  | .dsetReservedBit0 x => 1#2 ++ (x ++ 1#1)
  | .dsetReservedBits54 s x => 1#2 ++ (s ++ x)
  | .dsetFixedAddress t r => 0x4#4 ++ (BitVec.ofBool t ++ (1#1 ++ (BitVec.ofBool r ++ 0#1)))
  | .dsetTestMode r => 0x4#4 ++ (0b10#2 ++ (BitVec.ofBool r ++ 0#1))
  | .addrReservedBits54 s a => 3#2 ++ (s ++ a)
  | .dctrlReservedBits54 s n b => 2#2 ++ (s ++ (BitVec.ofBool n ++ b))

/-- Where in a transaction an instruction's byte stands (R80; the table's "context"). -/
def accepts (q : Seq) (i : Instr) : Bool :=
  match i with
  | .data _ => q == .addrData
  | .rdkey => match q with
    | .keyRead _ => true
    | .idle => false
    | .expectCmd => false
    | .closed => false
    | .addrData => false
  | .dsetW => q == .expectCmd
  | .dsetR => q == .expectCmd
  | .addr _ => q == .expectCmd
  | .dctrl _ _ => q == .expectCmd
  | .reservedClass00 _ => q == .expectCmd
  | .dsetReservedBit0 _ => q == .expectCmd
  | .dsetReservedBits54 _ _ => q == .expectCmd
  | .dsetFixedAddress _ _ => q == .expectCmd
  | .dsetTestMode _ => q == .expectCmd
  | .addrReservedBits54 _ _ => q == .expectCmd
  | .dctrlReservedBits54 _ _ _ => q == .expectCmd

/-- The code a command byte is refused with, none where it is admitted (R89, R91). -/
def commandRefusal : Instr → Option RefusalCode
  | .dsetW => none
  | .dsetR => none
  | .addr _ => none
  | .dctrl _ _ => none
  | .data _ => none
  | .rdkey => none
  | .reservedClass00 _ => some .reservedCmd
  | .dsetReservedBit0 _ => some .reservedBits
  | .dsetReservedBits54 _ _ => some .reservedBits
  | .dsetFixedAddress _ _ => some .fixedMode
  | .dsetTestMode _ => some .testMode
  | .addrReservedBits54 _ _ => some .reservedBits
  | .dctrlReservedBits54 _ _ _ => some .reservedBits

/-- "mask" and "match" of an instruction's row in spec/opcode_table.json. -/
def rowMaskMatch : Instr → Byte × Byte
  | .dsetW => (0xFF, 0x40)
  | .dsetR => (0xFF, 0x42)
  | .addr _ => (0xF0, 0xC0)
  | .dctrl _ _ => (0xF0, 0x80)
  | .data _ => (0x00, 0x00)
  | .rdkey => (0xFF, 0xFF)
  | .reservedClass00 _ => (0xC0, 0x00)
  | .dsetReservedBit0 _ => (0xC1, 0x41)
  | .dsetReservedBits54 _ _ => (0xC0, 0x40)
  | .dsetFixedAddress _ _ => (0xF5, 0x44)
  | .dsetTestMode _ => (0xFD, 0x48)
  | .addrReservedBits54 _ _ => (0xC0, 0xC0)
  | .dctrlReservedBits54 _ _ _ => (0xC0, 0x80)

/-- The position at which a table word is read. A word alone does not say its role: 0xFF, the one word of the row
`RDKEY`, is read after `DSET.R` (R181); every other word as the first byte of a transaction (DESIGN CHOICE,
notes/assumptions/3.md). -/
def tableSeq (b : Byte) : Seq := if b = 0xFF then .keyRead 0 else .expectCmd

/-- The instruction the decoder reads from an opcode-table word. Every row is one byte. -/
def decodeTableWord (nbits w : Nat) : Option Instr :=
  let b : Byte := BitVec.ofNat 8 (w % 2 ^ nbits)
  match decode (tableSeq b) b with
  | .ok i => some i
  | .error _ => none

end Sys2Proof
end

