-- ==== Sys2Proof/Config.lean ====
section
/-!
DEFINITION. What is fixed for a run (R16): the open parameters of R7 and R241, as one record the operations take as an
argument and as opaque constants the machine is run with, and the free values of R114 and R182.
-/

namespace Sys2Proof

/-- `KEY_POLICY` (R216). -/
inductive KeyPolicy where
  | strict
  | permissive
deriving DecidableEq, Repr, Inhabited

/-- The board layout in use (R16, 45_board_layouts.md). -/
inductive Layout where
  | typeA
  | typeB
  | typeC
deriving DecidableEq, Repr, Inhabited

/-- The configuration parameters of R7 and R241 that a rule of the model reads. -/
structure Params where
  /-- `KEY_MASK`. -/
  keyMask : Byte
  /-- `BRT_DEFAULT`. -/
  brtDefault : BitVec 3
  /-- `KEY_POLICY`. -/
  keyPolicy : KeyPolicy
  /-- The board layout. -/
  layout : Layout
  /-- The last column, `NUM_COLS - 1`, so that `NUM_COLS` is 1 to 8. DEDUCED, safe: R241 bounds Type B by 8, and Types A
  and C give each column a grid of its own (R249), of which there are 8 (notes/assumptions/10.md). -/
  lastCol : BitVec 3
  /-- `FONT`. -/
  font : Byte → BitVec 16
  /-- `COL_GRID` (Types A and C). -/
  colGrid : Nat → Fin 8
  /-- `ICON_MASK_A`. -/
  iconMaskA : BitVec 16
  /-- `ICON_MASK_C`. -/
  iconMaskC : BitVec 16
  /-- `DP_BIT` (Types A and C). -/
  dpBit : Fin 8
  /-- `SEG_ADDR` (Type B). -/
  segAddr : Fin 7 → Fin 16
  /-- `DP_ADDR` (Type B). -/
  dpAddr : Fin 16
  /-- `COL_BIT` (Type B). -/
  colBit : Nat → Fin 8

/-- `NUM_COLS`. -/
def Params.numCols (p : Params) : Nat := p.lastCol.toNat + 1

/-- The seven segment addresses and the decimal point's. -/
def Params.typeBAddrs (p : Params) : List (Fin 16) :=
  [p.segAddr 0, p.segAddr 1, p.segAddr 2, p.segAddr 3, p.segAddr 4, p.segAddr 5, p.segAddr 6, p.dpAddr]

/-- "all eight distinct" (R241). -/
abbrev Params.TypeBDistinct (p : Params) : Prop := p.typeBAddrs.Nodup

/-- `KEY_MASK`, OPEN (R7, D24). -/
opaque Config.keyMask : Byte
/-- `BRT_DEFAULT`, OPEN (R7, D25). -/
opaque Config.brtDefault : BitVec 3
/-- `KEY_POLICY`, fixed at construction (R7, D26). -/
opaque Config.keyPolicy : KeyPolicy
/-- The board layout in use (R16). -/
opaque Config.layout : Layout
/-- `NUM_COLS - 1`, OPEN (R241, D40). -/
opaque Config.lastCol : BitVec 3
/-- `FONT`, OPEN (R241, D44), before the condition of R241 for Types A and C. -/
opaque Config.font : Byte → BitVec 16
/-- `ICON_MASK_A`, OPEN (R241, D41). -/
opaque Config.iconMaskA : BitVec 16
/-- `ICON_MASK_C`, OPEN (R241, D43). -/
opaque Config.iconMaskC : BitVec 16
/-- `DP_BIT`, OPEN (R241, D41). -/
opaque Config.dpBit : Fin 8
/-- `SEG_ADDR`, OPEN (R241, D42), before the condition that the eight addresses are distinct. -/
opaque Config.segAddr : Fin 7 → Fin 16
/-- `DP_ADDR`, OPEN (R241, D42), before the same condition. -/
opaque Config.dpAddr : Fin 16

/-- The byte the chip shifts out during a command or data byte, the `n`-th byte it returns in the run: a free value
(R114, D12). -/
opaque Config.lineByte : (n : Nat) → Byte
/-- The key-memory byte `k` as the scan engine presents it when the chip shifts out the `n`-th byte of the run: a free
value, a fresh one at every read (R23, R182, D13). -/
opaque Config.keyMemory : (k : Fin 4) → (n : Nat) → Byte

/-- The eight Type B addresses as seven segment addresses and a decimal-point address. -/
structure TypeBMap where
  segAddr : Fin 7 → Fin 16
  dpAddr : Fin 16

/-- All eight addresses of a Type B map are distinct (R241). -/
abbrev TypeBMap.Distinct (m : TypeBMap) : Prop :=
  [m.segAddr 0, m.segAddr 1, m.segAddr 2, m.segAddr 3, m.segAddr 4, m.segAddr 5, m.segAddr 6, m.dpAddr].Nodup

/-- The Type B map of the run: the open addresses where they are distinct, as R241 requires. An assignment that R241
rules out is replaced by one it allows, so this ranges over exactly the maps R241 allows (notes/assumptions/9.md). -/
def Config.typeB : TypeBMap :=
  if TypeBMap.Distinct ⟨Config.segAddr, Config.dpAddr⟩ then ⟨Config.segAddr, Config.dpAddr⟩
  else ⟨fun s => Fin.ofNat 16 s.val, 7⟩

/-- `FONT` of the run: "for Type A and Type C the pattern lies in the low byte" (R241). -/
def Config.fontOf (ch : Byte) : BitVec 16 :=
  match Config.layout with
  | .typeA => Config.font ch &&& 0x00FF
  | .typeB => Config.font ch
  | .typeC => Config.font ch &&& 0x00FF

/-- The configuration the machine runs with. `COL_GRID(c) = c` and `COL_BIT(c) = c` are the spec's choices (R241, D40,
D42); a column is below `NUM_COLS`, at most 8. -/
def Config.params : Params where
  keyMask := Config.keyMask
  brtDefault := Config.brtDefault
  keyPolicy := Config.keyPolicy
  layout := Config.layout
  lastCol := Config.lastCol
  font := Config.fontOf
  colGrid := fun c => Fin.ofNat 8 c
  iconMaskA := Config.iconMaskA
  iconMaskC := Config.iconMaskC
  dpBit := Config.dpBit
  segAddr := Config.typeB.segAddr
  dpAddr := Config.typeB.dpAddr
  colBit := fun c => Fin.ofNat 8 c

end Sys2Proof
end

