-- ==== Sys2Proof/Machine/State.lean ====
section
/-!
DEFINITION. The machine's state as plain data: every field of the spec's record S (R20, R38), the host's state (R200,
R201, R215, R240), and the host's events still to come (R15, R110). With it the two kinds of stop and the state at
power-up.
-/

namespace Sys2Proof.Machine

/-- `CS` (R32). -/
inductive ChipSelect where
  | asserted
  | deasserted
deriving DecidableEq, Repr

/-- `RW`, the read/write mode (R26). -/
inductive RwMode where
  | write
  | read
deriving DecidableEq, Repr

/-- `AINC`, the addressing mode (R27). -/
inductive AddrMode where
  | inc
  | fixed
deriving DecidableEq, Repr

/-- `TEST`, the test mode (R28). -/
inductive TestMode where
  | normal
  | testMode
deriving DecidableEq, Repr

/-- The operations of the driver (44_host_operations.md) and of the board adapter (45_board_layouts.md). `none` as an
argument is an argument left out, which takes the default the rule gives. -/
inductive HostOp where
  /-- R203. -/
  | init
  /-- R205. -/
  | setBrightness (x : Option Byte)
  /-- R206. -/
  | setDisplayOn (on : Bool)
  /-- R207. -/
  | writeByte (data : Byte) (address : Nat)
  /-- R208, R209. -/
  | writeBlock (buf : Vector Byte 16) (length : Option Nat) (address : Option Nat)
  /-- R210. -/
  | clearScreen
  /-- R211 to R216. -/
  | scanKeys
  /-- R244 to R247. -/
  | putc (ch : Byte)
  /-- R248. -/
  | locate (c : Nat)
  /-- R248. -/
  | writeCell (c : Nat) (ch : Byte)
  /-- R256, R257. -/
  | setIcon (id : Nat)
  /-- R256, R258. -/
  | clrIcon (id : Nat)
  /-- R259. -/
  | clearAll
  /-- R261. -/
  | customGlyph
deriving DecidableEq, Repr

/-- What the host does next: one entry a step. The first three are the transport events of R110. -/
inductive Input where
  /-- `CS_ASSERT` (R111). -/
  | csAssert
  /-- `XFER(m)`, `m` a chip byte (R112, R113). -/
  | xfer (m : Byte)
  /-- `CS_DEASSERT` (R115). -/
  | csDeassert
  /-- A byte exchange given as the host's bus byte (R11, R116). -/
  | busXfer (b : Byte)
  /-- Bits clocked on the serial line, first bit first, as a bit-level trace gives them (R53, R118). -/
  | bits (l : List Bool)
  /-- A display observation `lit(g, j)` (R165). -/
  | observeLit (g : Fin 8) (j : Fin 16)
  /-- A display observation `level()` (R165). -/
  | observeLevel
  /-- A host or board operation (R94). -/
  | op (o : HostOp)
  /-- `scanKeys`, step 2 (R212). -/
  | maskKeys
  /-- `scanKeys`, step 4 and the verdict (R214 to R216). -/
  | countKeys
  /-- The last step of a printable `putc`: the cursor advances (R246). -/
  | cursorNext
  /-- The last step of `clearAll`: the cursor returns to column 0 (R259). -/
  | cursorHome
deriving DecidableEq, Repr

/-- The host's result of `scanKeys` (R212, R215). -/
inductive KeyScan where
  /-- No scan has run. -/
  | noScan
  /-- The masked block, the verdict not yet taken. -/
  | block (kd : Vector Byte 4)
  /-- `(pressed, kd)`. -/
  | result (pressed : Bool) (kd : Vector Byte 4)
deriving DecidableEq, Repr

/-- The value of the last display observation (R165, R282). -/
inductive Seen where
  /-- No observation has been made. -/
  | nothing
  /-- The observation faulted: it "has no value" (R282). -/
  | noValue
  /-- `lit(g, j)`: true is on, false is dark. -/
  | lit (on : Bool)
  /-- `level()`. -/
  | level (b : BitVec 3)
deriving DecidableEq, Repr

/-- The known bytes of a 16-byte file as (address, byte) pairs, addresses strictly rising and below 16. An address that
is not listed reads as the spec's `⊥` (R13, R21, R240), so no entry is equal to what an unlisted address reads as. -/
abbrev Memory := List Host.Cell

/-- The state. `refused` and `faults` are the spec's bookkeeping (R20, R283); the fields from `hDon` on are the
host's; `input`, `draws` and `seen` are the model's own (notes/assumptions/1.md, 2.md, 6.md). -/
structure State where
  /-- Display memory `DM` (R21). -/
  dm : Memory
  /-- `PTR`, 0 to 16 (R25). -/
  ptr : Latch (Fin 17)
  /-- `RW` (R26). -/
  rw : Latch RwMode
  /-- `AINC` (R27). -/
  ainc : Latch AddrMode
  /-- `TEST` (R28). -/
  test : Latch TestMode
  /-- `DON` (R29): true is 1, display on. -/
  don : Latch Bool
  /-- `BRT` (R29). -/
  brt : Latch (BitVec 3)
  /-- `CS` (R32). -/
  cs : ChipSelect
  /-- `SEQ` (R31). -/
  seq : Seq
  /-- `refused` (R20, R283). -/
  refused : Option RefusalCode
  /-- `faults`, a set: no code stands in it twice (R20, R283). -/
  faults : List FaultCode
  /-- `hDON` (R200). -/
  hDon : Bool
  /-- `hBRT` (R200). -/
  hBrt : BitVec 3
  /-- The shadow buffer `SH` (R240). -/
  shadow : Memory
  /-- The cursor column `col` (R240). -/
  col : Nat
  /-- The chip bytes r0, r1, ... the host received in the current or last transaction, oldest first (R113, R201). -/
  rx : List Byte
  /-- The bus bytes the host's transport received in the current or last transaction, oldest first (R11, R116, R181). -/
  busRx : List Byte
  /-- The last key scan (R212, R215). -/
  keys : KeyScan
  /-- The last display observation. -/
  seen : Seen
  /-- What the host does next, first entry first. -/
  input : List Input
  /-- How many bytes the chip has shifted out: the argument of the next free value (R114, R182). -/
  draws : Nat
deriving DecidableEq, Repr

/-- Faults: states no run from power-up reaches, in which a rule has no operand to compute with. Safe, all of them:
the machine stops where the spec gives no state to go on from. They are not the spec's fault code 101, which does not
stop a run and stands in `State.faults` (R282). -/
inductive Fault where
  /-- A data byte with `PTR` = `⊥` (R13, R161). Raised by `execData`; safe: `ADDR_DATA` is entered only by `ADDR`,
  which sets `PTR` (R136). -/
  | pointerUnknown
  /-- A read byte at a position that is no `KEY_READ(k)` (R181). Raised by `execRdkey` when it is called outside its
  position; safe: the decoder gives `RDKEY` at `KEY_READ(k)` only. -/
  | noReadPosition
  /-- The steps of `scanKeys` after its read transaction, without five received bytes or without a masked block (R212,
  R214). Raised by `maskKeys` and `countKeys`; safe: `scanKeys` issues each after what it needs. -/
  | noKeyBlock
deriving DecidableEq, Repr

/-- Refusals: an event the spec gives no meaning (R280, R281). -/
inductive Refusal where
  /-- An instruction without a meaning in the model, by its mnemonic: raised by `exec`'s refused arms only. Safe. -/
  | notModelled (mnemonic : String)
  /-- `refuse <Code>` (R12, R281): raised by the rule that names the code, through `refuse`. `marked` is the state
  after the event, in which nothing but `S.refused` is changed. Safe: "errs toward unprovable" (R281). -/
  | event (code : RefusalCode) (marked : State)
  /-- "once `S.refused` holds a code, the model has no further step" (R283): raised by `step` in a marked state. Safe. -/
  | runRefused (code : RefusalCode)
deriving DecidableEq, Repr

/-- Power-up (R38, R310): every chip field `⊥` but `CS` and `SEQ`, no refusal, no fault. The shadow is unknown and the
cursor at column 0 (R240). `hDon`, `hBrt` (DESIGN CHOICE, unsafe, notes/assumptions/4.md), `rx`, `busRx`, `keys` (5.md), `seen`
(6.md), `input` (1.md) and `draws` (2.md) are the model's choice. -/
def State.reset : State where
  dm := []
  ptr := .bot
  rw := .bot
  ainc := .bot
  test := .bot
  don := .bot
  brt := .bot
  cs := .deasserted
  seq := .idle
  refused := none
  faults := []
  hDon := false
  hBrt := 0
  shadow := []
  col := 0
  rx := []
  busRx := []
  keys := .noScan
  seen := .nothing
  input := []
  draws := 0

end Sys2Proof.Machine
end

