-- ==== Sys2Proof/Machine/Operands.lean ====
section
/-!
DEFINITION. Operand assembly and byte helpers: pointer values (R25, R88), the two addresses of a grid (R22, R160), bit
reversal (R10), bits on the serial line (R53, R118), single bits and bit counts (R9).
-/

namespace Sys2Proof.Machine

/-- `A = zext_5(c[3:0])`: the pointer an address names (R88, R136). -/
def ptrOf (a : BitVec 4) : Fin 17 := ⟨a.toNat, Nat.lt_of_lt_of_le a.isLt (by decide)⟩

/-- The pointer after the byte at address `a`: 16 past the end, no wrap (R25, R163). -/
def ptrAfter (a : Fin 16) : Fin 17 := a.succ

/-- The even address of grid `g`, which holds bits 7..0 of its word (R160). -/
def evenAddr (g : Fin 8) : Fin 16 := ⟨2 * g.val, by omega⟩

/-- The odd address of grid `g`, which holds bits 15..8 of its word (R160). -/
def oddAddr (g : Fin 8) : Fin 16 := ⟨2 * g.val + 1, by omega⟩

/-- The address of the byte that holds segment `j` of grid `g`: `2g + (j >> 3)` (R165). -/
def segmentAddr (g : Fin 8) (j : Fin 16) : Fin 16 := ⟨2 * g.val + j.val / 8, by omega⟩

/-- Segment `j`'s bit in its byte: `byte[j & 7]` (R165). -/
def segmentBit (b : Byte) (j : Fin 16) : Bool := b.getLsbD (j.val % 8)

/-- The low byte of a grid word (R160). -/
def lowByte (w : BitVec 16) : Byte := w.extractLsb' 0 8

/-- The high byte of a grid word (R160). -/
def highByte (w : BitVec 16) : Byte := w.extractLsb' 8 8

/-- A byte with one bit set or cleared. -/
def withBit (b : Byte) (k : Fin 8) (v : Bool) : Byte :=
  if v then b ||| (1#8 <<< k.val) else b &&& ~~~(1#8 <<< k.val)

/-- The byte's bits in the order they stand on the serial line, least significant first (R53). -/
def lineBits (b : Byte) : List Bool :=
  [b.getLsbD 0, b.getLsbD 1, b.getLsbD 2, b.getLsbD 3, b.getLsbD 4, b.getLsbD 5, b.getLsbD 6, b.getLsbD 7]

/-- The chip byte of eight bits, the first on the line being bit 0 (R11). -/
def chipByteOfLine (b0 b1 b2 b3 b4 b5 b6 b7 : Bool) : Byte :=
  BitVec.ofBoolListLE [b0, b1, b2, b3, b4, b5, b6, b7]

/-- The bus byte of eight bits, the first on the line being bit 7 (R11). -/
def busByteOfLine (b0 b1 b2 b3 b4 b5 b6 b7 : Bool) : Byte :=
  BitVec.ofBoolListBE [b0, b1, b2, b3, b4, b5, b6, b7]

/-- `flip(b)[i] = b[7 - i]` (R10). -/
def flipByte (b : Byte) : Byte :=
  BitVec.ofBoolListLE
    [b.getLsbD 7, b.getLsbD 6, b.getLsbD 5, b.getLsbD 4, b.getLsbD 3, b.getLsbD 2, b.getLsbD 1, b.getLsbD 0]

/-- `popcount(v)`, the number of 1 bits (R9). -/
def popcount (b : Byte) : Nat := (lineBits b).count true

/-- The chip bytes of a line's bits, eight by eight; none where they are not whole bytes (R118). -/
def wholeBytes : List Bool → Option (List Byte)
  | [] => some []
  | b0 :: b1 :: b2 :: b3 :: b4 :: b5 :: b6 :: b7 :: rest =>
    (wholeBytes rest).map (chipByteOfLine b0 b1 b2 b3 b4 b5 b6 b7 :: ·)
  | _ => none

end Sys2Proof.Machine
end

