-- ==== Sys2Proof/Machine/Ops.lean ====
section
/-!
DEFINITION. The named operations over a 16-byte file (display memory, shadow buffer) and over the state. The chip takes
no exception and returns from none (R280, R286, R287): what stands in that place is `refuse`, which marks the run (R281,
R283), and `recordFault`, which records an observation's fault (R282).
-/

namespace Sys2Proof.Machine

/-! ### A 16-byte file -/

/-- The byte at address `a`, `⊥` where nothing has been written (R13, R21). -/
def memRead : Memory → Nat → Latch Byte
  | [], _ => .bot
  | (b, v) :: m, a => if a = b then .known v else memRead m a

/-- The list with the byte at address `a` set, in the canonical form's order. -/
def memInsert : Memory → Nat → Byte → Memory
  | [], a, v => [(a, v)]
  | (b, w) :: m, a, v =>
    if a < b then (a, v) :: (b, w) :: m
    else if a = b then (a, v) :: m
    else (b, w) :: memInsert m a v

/-- `DM[a] <- v` (R12): there is no address above 15 (R51). -/
def memWrite (m : Memory) (a : Fin 16) (v : Byte) : Memory := memInsert m a.val v

/-- The canonical form: addresses strictly rising, and below 16. -/
def Memory.wf : Memory → Bool
  | [] => true
  | [(a, _)] => decide (a < 16)
  | (a, _) :: (b, w) :: m => decide (a < b) && Memory.wf ((b, w) :: m)

/-- Every byte 0x00 (R210, R259). -/
def zeroMemory : Memory := (List.range 16).map fun a => (a, 0)

/-- `n` bytes from address `a` upward, none where one of them is `⊥`. -/
def readRange (m : Memory) (a : Nat) : Nat → Option (List Byte)
  | 0 => some []
  | n + 1 =>
    match memRead m a with
    | .bot => none
    | .known v => (readRange m (a + 1) n).map (v :: ·)

/-- `W(g)`, "defined only when both bytes are known" (R160). -/
def gridWord (m : Memory) (g : Fin 8) : Latch (BitVec 16) :=
  match memRead m (evenAddr g).val, memRead m (oddAddr g).val with
  | .known lo, .known hi => .known (hi ++ lo)
  | .known _, .bot => .bot
  | .bot, .known _ => .bot
  | .bot, .bot => .bot

/-- Both bytes of grid `g` written from its word (R160). -/
def putGridWord (m : Memory) (g : Fin 8) (w : BitVec 16) : Memory :=
  memWrite (memWrite m (evenAddr g) (lowByte w)) (oddAddr g) (highByte w)

/-! ### Stops and records -/

/-- The state of a refused run: "nothing of the state changes except `S.refused`" (R281). -/
def State.markRefused (s : State) (c : RefusalCode) : State := { s with refused := some c }

/-- `refuse <Code>` (R12, R281): ends the step, with the state marked. -/
def refuse (c : RefusalCode) (s : State) : Host.Outcome State Fault Refusal :=
  .refused (.event c (s.markRefused c))

/-- A code added to a set of fault codes (R20). -/
def addFault (fs : List FaultCode) (f : FaultCode) : List FaultCode := if f ∈ fs then fs else fs ++ [f]

/-- A fault is recorded in `S.faults` and never removed (R282, R283). -/
def State.recordFault (s : State) (f : FaultCode) : State := { s with faults := addFault s.faults f }

/-- The value of an observation. -/
def State.setSeen (s : State) (v : Seen) : State := { s with seen := v }

/-! ### The transaction -/

/-- `S.SEQ <- q` (R31). -/
def State.setSeq (s : State) (q : Seq) : State := { s with seq := q }

/-- `S.CS <- ASSERTED; S.SEQ <- EXPECT_CMD` (R111). The host's results r0, r1, ... start anew with the transaction
(R201). -/
def State.openTransaction (s : State) : State :=
  { s with cs := .asserted, seq := .expectCmd, rx := [], busRx := [] }

/-- `S.CS <- DEASSERTED; S.SEQ <- IDLE`; everything else keeps its value (R115). -/
def State.closeTransaction (s : State) : State := { s with cs := .deasserted, seq := .idle }

/-- The host's transport receives the bus byte `r`: the host holds the chip byte `flip(r)` (R116, R201). -/
def State.receive (s : State) (r : Byte) : State := { s with busRx := s.busRx ++ [r], rx := s.rx ++ [flipByte r] }

/-- One more free value is drawn: the next one is a fresh one (R114, R182). -/
def State.advanceDraw (s : State) : State := { s with draws := s.draws + 1 }

/-- The chip shifts out `b` while it receives a byte: on the bus it is `flip(b)`, which the host receives (R11, R113,
R116, R181). -/
def State.reply (s : State) (b : Byte) : State := (s.receive (flipByte b)).advanceDraw

/-- The byte returned during a command or data byte: a free draw (R114). -/
def lineDraw (s : State) : Byte := Config.lineByte s.draws

/-- `KM[k]` as presented at this read: a draw (R12, R181, R182). -/
def keyDraw (s : State) (k : Fin 4) : Byte := Config.keyMemory k s.draws

/-! ### The pointer, display memory and the host's input -/

/-- `S.PTR <- p` (R25). -/
def State.setPtr (s : State) (p : Fin 17) : State := { s with ptr := .known p }

/-- `S.DM[a] <- d` (R161). -/
def State.writeDm (s : State) (a : Fin 16) (d : Byte) : State := { s with dm := memWrite s.dm a d }

/-- The host does `es` before what it had to do next: operations do not overlap (R219). -/
def State.issue (s : State) (es : List Input) : State := { s with input := es ++ s.input }

/-- The host has taken the first entry of its input. -/
def State.setInput (s : State) (es : List Input) : State := { s with input := es }

end Sys2Proof.Machine
end

