-- ==== Sys2Proof/Machine/Flags.lean ====
section
/-!
DEFINITION. The controller has no flags (R35). Here stand "the nearest things": the mode latches, written together by
every data-setting command (R131, R132), the display-control latch, written together by every display-control command
(R138), and the host's keypress verdict (R214, R216).
-/

namespace Sys2Proof.Machine

/-- `S.RW <- m; S.AINC <- INC; S.TEST <- NORMAL` (R131, R132). -/
def State.setModes (s : State) (m : RwMode) : State :=
  { s with rw := .known m, ainc := .known .inc, test := .known .normal }

/-- `S.DON <- on; S.BRT <- b` (R138). -/
def State.setDisplay (s : State) (on : Bool) (b : BitVec 3) : State := { s with don := .known on, brt := .known b }

/-- The key count `n`, the set bits of the four masked bytes (R214). -/
def keyCount (kd : Vector Byte 4) : Nat := popcount kd[0] + popcount kd[1] + popcount kd[2] + popcount kd[3]

/-- `pressed` under each policy (R216). -/
def keyPressed (policy : KeyPolicy) (kd : Vector Byte 4) : Bool :=
  match policy with
  | .strict => keyCount kd == 1
  | .permissive => decide (1 ≤ keyCount kd)

end Sys2Proof.Machine
end

