-- ==== Sys2Proof/Machine/HostOps.lean ====
section
/-!
DEFINITION. The driver's operations as the transactions they expand to (44_host_operations.md), and the host's steps
between and after them. Events are in chip bytes; `busTrace` is what the transport carries.
-/

namespace Sys2Proof.Machine

/-- `xact[c0, ..., cn]`: one framed transaction, deasserted at its end (R201). -/
def xact (cs : List Byte) : List Input := .csAssert :: (cs.map .xfer ++ [.csDeassert])

/-- The bus bytes of a list of events, one list a transaction: every byte is flipped once (R202). `cur` holds the bytes
of the transaction under way. -/
def busTraceFrom (cur : List Byte) : List Input → List (List Byte)
  | [] => []
  | .csAssert :: es => busTraceFrom [] es
  | .xfer m :: es => busTraceFrom (cur ++ [flipByte m]) es
  | .busXfer b :: es => busTraceFrom (cur ++ [b]) es
  | .csDeassert :: es => cur :: busTraceFrom [] es
  | .bits _ :: es => busTraceFrom cur es
  | .observeLit _ _ :: es => busTraceFrom cur es
  | .observeLevel :: es => busTraceFrom cur es
  | .op _ :: es => busTraceFrom cur es
  | .maskKeys :: es => busTraceFrom cur es
  | .countKeys :: es => busTraceFrom cur es
  | .cursorNext :: es => busTraceFrom cur es
  | .cursorHome :: es => busTraceFrom cur es

/-- The bus trace of a list of events (R202, R221). -/
def busTrace (es : List Input) : List (List Byte) := busTraceFrom [] es

/-- `sendDisplayControl` with the host's two fields (R204). -/
def displayControlEvents (on : Bool) (b : BitVec 3) : List Input := xact [encode (.dctrl on b)]

/-- `xact[0x40]`: the write-mode command alone (R203, R213). -/
def writeModeEvents : List Input := xact [encode .dsetW]

/-- One address-setting transaction with its data bytes (R207, R208). -/
def blockEvents (a : BitVec 4) (bs : List Byte) : List Input := xact (encode (.addr a) :: bs)

/-- `address & 0x0F` (R207, R208). -/
def maskAddress (address : Nat) : BitVec 4 := BitVec.ofNat 4 address

/-- `L = min(length, 16 - a)` (R208). -/
def clampLength (a : BitVec 4) (length : Nat) : Nat := min length (16 - a.toNat)

/-- `buf[a], ..., buf[a + n - 1]`: the data come from the target address on (R208). -/
def blockBytes (buf : Vector Byte 16) (a : BitVec 4) (n : Nat) : List Byte := (buf.toList.drop a.toNat).take n

/-- `writeBlock(buf, length, address)` (R208, R209). -/
def writeBlockEvents (buf : Vector Byte 16) (length address : Nat) : List Input :=
  blockEvents (maskAddress address)
    (blockBytes buf (maskAddress address) (clampLength (maskAddress address) length))

/-- `clearScreen()` (R210). -/
def clearScreenEvents : List Input := writeBlockEvents (Vector.replicate 16 0) 16 0

/-- `scanKeys()`: the read transaction, the masking, the restore, the count (R211 to R216). -/
def scanKeysEvents : List Input :=
  xact [encode .dsetR, encode .rdkey, encode .rdkey, encode .rdkey, encode .rdkey] ++
    (.maskKeys :: (writeModeEvents ++ [.countKeys]))

/-- `hDON`, `hBRT` (R200). -/
def State.setHost (s : State) (on : Bool) (b : BitVec 3) : State := { s with hDon := on, hBrt := b }

/-- `init` (R203): steps (b) and (c); step (a), the transport's set-up, makes no bus traffic and is outside the model
(R6, R122). -/
def hostInit (p : Params) (s : State) : Host.Outcome State Fault Refusal :=
  .next ((s.setHost true p.brtDefault).issue (displayControlEvents true p.brtDefault ++ writeModeEvents))

/-- `x & 0x07`, `BRT_DEFAULT` where `x` is left out (R205). -/
def brightnessArg (p : Params) (x : Option Byte) : BitVec 3 :=
  match x with
  | none => p.brtDefault
  | some x => x.truncate 3

/-- `setBrightness(x)` (R205): sent on every call. -/
def hostSetBrightness (p : Params) (x : Option Byte) (s : State) : Host.Outcome State Fault Refusal :=
  .next ((s.setHost s.hDon (brightnessArg p x)).issue (displayControlEvents s.hDon (brightnessArg p x)))

/-- `setDisplayOn(on)` (R206): sent on every call. -/
def hostSetDisplayOn (on : Bool) (s : State) : Host.Outcome State Fault Refusal :=
  .next ((s.setHost on s.hBrt).issue (displayControlEvents on s.hBrt))

/-- `writeByte(data, address)` (R207). -/
def hostWriteByte (data : Byte) (address : Nat) (s : State) : Host.Outcome State Fault Refusal :=
  .next (s.issue (blockEvents (maskAddress address) [data]))

/-- `writeBlock` with its defaults, length 16 and address 0 (R208). -/
def hostWriteBlock (buf : Vector Byte 16) (length address : Option Nat) (s : State) :
    Host.Outcome State Fault Refusal :=
  .next (s.issue (writeBlockEvents buf (length.getD 16) (address.getD 0)))

/-- `clearScreen()` (R210). -/
def hostClearScreen (s : State) : Host.Outcome State Fault Refusal := .next (s.issue clearScreenEvents)

/-- `scanKeys()` (R211 to R216). -/
def hostScanKeys (s : State) : Host.Outcome State Fault Refusal := .next (s.issue scanKeysEvents)

/-- The host's key result. -/
def State.setKeys (s : State) (k : KeyScan) : State := { s with keys := k }

/-- `kd[i] <- ri & KEY_MASK`, `ri` the four read results, the command byte's result left aside (R211, R212). -/
def hostMaskKeys (p : Params) (s : State) : Host.Outcome State Fault Refusal :=
  match s.rx with
  | [_, r0, r1, r2, r3] =>
    .next (s.setKeys (.block #v[r0 &&& p.keyMask, r1 &&& p.keyMask, r2 &&& p.keyMask, r3 &&& p.keyMask]))
  | _ => .fault .noKeyBlock

/-- `(pressed, kd)`: the verdict by the policy, the block unmodified (R214 to R216). -/
def hostCountKeys (p : Params) (s : State) : Host.Outcome State Fault Refusal :=
  match s.keys with
  | .block kd => .next (s.setKeys (.result (keyPressed p.keyPolicy kd) kd))
  | .noScan => .fault .noKeyBlock
  | .result _ _ => .fault .noKeyBlock

end Sys2Proof.Machine
end

