-- ==== Sys2Proof/Machine/Board.lean ====
section
/-!
DEFINITION. The board adapter (45_board_layouts.md): the cursor, the three layouts' segment mapping, icons, and the
flush of the changed shadow range through the driver.
-/

namespace Sys2Proof.Machine

/-- A change of the shadow: the new shadow and the set T of changed addresses (R243); none where a shadow byte the
operation reads is `⊥` (R260). -/
abbrev ShadowEdit := Option (Memory × List (Fin 16))

/-- `clampcol(c) = min(c, NUM_COLS - 1)` (R242). -/
def clampCol (p : Params) (c : Nat) : Nat := min c (p.numCols - 1)

/-- The smallest address of T, no address above `a` (R243). -/
def lowest (a : Fin 16) (t : List (Fin 16)) : Fin 16 := t.foldl min a

/-- The largest address of T, no address below `a` (R243). -/
def highest (a : Fin 16) (t : List (Fin 16)) : Fin 16 := t.foldl max a

/-- The flush: one `writeBlock(SH, max(T) - min(T) + 1, min(T))`, none where a byte of that range is `⊥`; nothing where
T is empty (R243). -/
def flushEvents (sh : Memory) : List (Fin 16) → Option (List Input)
  | [] => some []
  | a :: t =>
    let lo := lowest a t
    let hi := highest a t
    (readRange sh lo.val (clampLength (maskAddress lo.val) (hi.val - lo.val + 1))).map (blockEvents (maskAddress lo.val))

/-- The shadow buffer. -/
def State.setShadow (s : State) (sh : Memory) : State := { s with shadow := sh }

/-- The cursor column. -/
def State.setCol (s : State) (c : Nat) : State := { s with col := c }

/-- An adapter operation that changes the shadow: refused `SHADOW_UNKNOWN` with no change and no traffic where it reads
or flushes a `⊥` byte (R243, R260); else the shadow changes and the range is flushed, then `after`. -/
def commitEdit (e : ShadowEdit) (after : List Input) (s : State) : Host.Outcome State Fault Refusal :=
  match e with
  | none => refuse .shadowUnknown s
  | some (sh, t) =>
    match flushEvents sh t with
    | none => refuse .shadowUnknown s
    | some es => .next ((s.setShadow sh).issue (es ++ after))

/-- `W <- (W & M) | (FONT(ch) & ~M)` in grid `g`, `M` the icon mask (R249, R254). -/
def charInGrid (p : Params) (mask : BitVec 16) (c : Nat) (ch : Byte) (sh : Memory) : ShadowEdit :=
  match gridWord sh (p.colGrid c) with
  | .bot => none
  | .known w =>
    some (putGridWord sh (p.colGrid c) ((w &&& mask) ||| (p.font ch &&& ~~~mask)),
      [evenAddr (p.colGrid c), oddAddr (p.colGrid c)])

/-- The decimal point of column `c`, a bit of its low byte (R250, R255). -/
def pointInGrid (p : Params) (c : Nat) (sh : Memory) : ShadowEdit :=
  match memRead sh (evenAddr (p.colGrid c)).val with
  | .bot => none
  | .known b => some (memWrite sh (evenAddr (p.colGrid c)) (withBit b p.dpBit true), [evenAddr (p.colGrid c)])

/-- One bit of one shadow byte set to `v`. -/
def editBit (sh : Memory) (a : Fin 16) (k : Fin 8) (v : Bool) : Option Memory :=
  match memRead sh a.val with
  | .bot => none
  | .known b => some (memWrite sh a (withBit b k v))

/-- The column's bit in each listed segment byte takes the font's value for that segment (R252). -/
def editSegments (p : Params) (k : Fin 8) (pattern : BitVec 16) : List (Fin 7) → Memory → Option Memory
  | [], sh => some sh
  | s :: rest, sh =>
    match editBit sh (p.segAddr s) k (pattern.getLsbD s.val) with
    | none => none
    | some sh' => editSegments p k pattern rest sh'

/-- The seven segments A to G (R251). -/
def segments : List (Fin 7) := [0, 1, 2, 3, 4, 5, 6]

/-- Type B: a character touches all seven segment bytes and no decimal point (R252). -/
def charInSegments (p : Params) (c : Nat) (ch : Byte) (sh : Memory) : ShadowEdit :=
  (editSegments p (p.colBit c) (p.font ch) segments sh).map fun sh' => (sh', segments.map p.segAddr)

/-- Type B: the decimal point of column `c`, a bit of the decimal-point byte (R253). -/
def pointInSegments (p : Params) (c : Nat) (sh : Memory) : ShadowEdit :=
  (editBit sh p.dpAddr (p.colBit c) true).map fun sh' => (sh', [p.dpAddr])

/-- The character write at column `c` in the board's layout (R249, R252, R254). -/
def writeChar (p : Params) (c : Nat) (ch : Byte) (sh : Memory) : ShadowEdit :=
  match p.layout with
  | .typeA => charInGrid p p.iconMaskA c ch sh
  | .typeB => charInSegments p c ch sh
  | .typeC => charInGrid p p.iconMaskC c ch sh

/-- The decimal point of column `c` in the board's layout (R250, R253, R255). -/
def setPoint (p : Params) (c : Nat) (sh : Memory) : ShadowEdit :=
  match p.layout with
  | .typeA => pointInGrid p c sh
  | .typeB => pointInSegments p c sh
  | .typeC => pointInGrid p c sh

/-- Newline or carriage return (R244). -/
def isReturn (ch : Byte) : Bool := ch == 0x0A || ch == 0x0D

/-- Period or comma (R245). -/
def isPoint (ch : Byte) : Bool := ch == 0x2E || ch == 0x2C

/-- Printable, 0x20 to 0x7E (R246). -/
def isPrintable (ch : Byte) : Bool := decide (0x20 ≤ ch.toNat) && decide (ch.toNat ≤ 0x7E)

/-- `putc(ch)` (R244 to R247). -/
def boardPutc (p : Params) (ch : Byte) (s : State) : Host.Outcome State Fault Refusal :=
  if isReturn ch then .next (s.setCol 0)
  else if isPoint ch then
    if s.col = 0 then .next s else commitEdit (setPoint p (s.col - 1) s.shadow) [] s
  else if isPrintable ch then commitEdit (writeChar p s.col ch s.shadow) [.cursorNext] s
  else .next s

/-- `col <- (col + 1) mod NUM_COLS` (R246). -/
def boardCursorNext (p : Params) (s : State) : Host.Outcome State Fault Refusal :=
  .next (s.setCol ((s.col + 1) % p.numCols))

/-- `col <- 0` (R259). -/
def boardCursorHome (s : State) : Host.Outcome State Fault Refusal := .next (s.setCol 0)

/-- `locate(c)` (R248). -/
def boardLocate (p : Params) (c : Nat) (s : State) : Host.Outcome State Fault Refusal :=
  .next (s.setCol (clampCol p c))

/-- `writeCell(c, ch)` (R248): the cursor does not move. -/
def boardWriteCell (p : Params) (c : Nat) (ch : Byte) (s : State) : Host.Outcome State Fault Refusal :=
  commitEdit (writeChar p (clampCol p c) ch s.shadow) [] s

/-- The grid index of an icon identifier, `id >> 16` (R256). -/
def iconGrid (id : Nat) : Nat := id / 2 ^ 16

/-- The pattern of an icon identifier, `id & 0xFFFF` (R256). -/
def iconPattern (id : Nat) : BitVec 16 := BitVec.ofNat 16 id

/-- A change of one grid's shadow word, both bytes read and written (R257, R258). -/
def editGrid (f : BitVec 16 → BitVec 16) (g : Fin 8) (sh : Memory) : ShadowEdit :=
  match gridWord sh g with
  | .bot => none
  | .known w => some (putGridWord sh g (f w), [evenAddr g, oddAddr g])

/-- An icon operation: `ICON_GRID` before `SHADOW_UNKNOWN` (R256, R284). -/
def boardIcon (f : BitVec 16 → BitVec 16) (id : Nat) (s : State) : Host.Outcome State Fault Refusal :=
  if h : iconGrid id < 8 then commitEdit (editGrid f ⟨iconGrid id, h⟩ s.shadow) [] s
  else refuse .iconGrid s

/-- `setIcon(id)` (R257). -/
def boardSetIcon (id : Nat) (s : State) : Host.Outcome State Fault Refusal :=
  boardIcon (fun w => w ||| iconPattern id) id s

/-- `clrIcon(id)` (R258). -/
def boardClrIcon (id : Nat) (s : State) : Host.Outcome State Fault Refusal :=
  boardIcon (fun w => w &&& ~~~iconPattern id) id s

/-- `clearAll()` (R259). -/
def boardClearAll (s : State) : Host.Outcome State Fault Refusal :=
  .next ((s.setShadow zeroMemory).issue (clearScreenEvents ++ [.cursorHome]))

/-- Custom glyph definition (R261). -/
def boardCustomGlyph (s : State) : Host.Outcome State Fault Refusal := refuse .unmodelledOp s

end Sys2Proof.Machine
end

