-- ==== Sys2Proof/Machine/Commands.lean ====
section
/-!
DEFINITION. The command bytes (41_commands.md): the admitted ones take effect when the byte is received (R130), the
refused ones refuse by their code and change no state (R133 to R135, R137, R139, R140).
-/

namespace Sys2Proof.Machine

/-- `DSET.W` (R131): modes, then `SEQ <- CLOSED`. -/
def execDsetW (s : State) : Host.Outcome State Fault Refusal :=
  .next (((s.setModes .write).setSeq .closed).reply (lineDraw s))

/-- `DSET.R` (R132): modes, then `SEQ <- KEY_READ(0)`. -/
def execDsetR (s : State) : Host.Outcome State Fault Refusal :=
  .next (((s.setModes .read).setSeq (.keyRead 0)).reply (lineDraw s))

/-- `ADDR a` (R136): `PTR <- a; SEQ <- ADDR_DATA`. -/
def execAddr (a : BitVec 4) (s : State) : Host.Outcome State Fault Refusal :=
  .next (((s.setPtr (ptrOf a)).setSeq .addrData).reply (lineDraw s))

/-- `DCTRL on, b` (R138): `DON <- on; BRT <- b; SEQ <- CLOSED`. -/
def execDctrl (n : Bool) (b : BitVec 3) (s : State) : Host.Outcome State Fault Refusal :=
  .next (((s.setDisplay n b).setSeq .closed).reply (lineDraw s))

/-- A command byte of class 00 (R140). -/
def execReservedClass00 (_x : BitVec 6) (s : State) : Host.Outcome State Fault Refusal := refuse .reservedCmd s

/-- A data-setting command with bit 0 set (R135). -/
def execDsetReservedBit0 (_x : BitVec 5) (s : State) : Host.Outcome State Fault Refusal := refuse .reservedBits s

/-- A data-setting command with bits 5:4 not 00 (R135). -/
def execDsetReservedBits54 (_s : BitVec 2) (_x : BitVec 4) (s : State) : Host.Outcome State Fault Refusal :=
  refuse .reservedBits s

/-- A data-setting command that selects fixed addressing (R133). -/
def execDsetFixedAddress (_t _r : Bool) (s : State) : Host.Outcome State Fault Refusal := refuse .fixedMode s

/-- A data-setting command that selects test mode (R134). -/
def execDsetTestMode (_r : Bool) (s : State) : Host.Outcome State Fault Refusal := refuse .testMode s

/-- An address-setting command with bits 5:4 not 00 (R137). -/
def execAddrReservedBits54 (_s : BitVec 2) (_a : BitVec 4) (s : State) : Host.Outcome State Fault Refusal :=
  refuse .reservedBits s

/-- A display-control command with bits 5:4 not 00 (R139). -/
def execDctrlReservedBits54 (_s : BitVec 2) (_n : Bool) (_b : BitVec 3) (s : State) :
    Host.Outcome State Fault Refusal :=
  refuse .reservedBits s

end Sys2Proof.Machine
end

