-- ==== Sys2Proof/Machine/DisplayMemory.lean ====
section
/-!
DEFINITION. Data bytes and what the display shows (42_display_memory.md).
-/

namespace Sys2Proof.Machine

/-- What a data byte does to display memory: in read mode "the byte does not reach display memory" (R161, R162). -/
def State.takeData (s : State) (m : RwMode) (a : Fin 16) (d : Byte) : State :=
  match m with
  | .write => s.writeDm a d
  | .read => s

/-- `DATA d` (R161 to R164): `MODE_UNKNOWN` before `WRITE_OVERRUN` (R284); then the byte is taken and the pointer
advances in either mode. `SEQ` stays `ADDR_DATA`. -/
def execData (d : Byte) (s : State) : Host.Outcome State Fault Refusal :=
  match s.rw with
  | .bot => refuse .modeUnknown s
  | .known m =>
    match s.ptr with
    | .bot => .fault .pointerUnknown
    | .known p =>
      if h : p.val < 16 then
        .next (((s.takeData m ⟨p.val, h⟩ d).setPtr (ptrAfter ⟨p.val, h⟩)).reply (lineDraw s))
      else refuse .writeOverrun s

/-- `lit(g, j)` (R165): true is on, false is dark; `⊥` where the observation faults. -/
def litValue (s : State) (g : Fin 8) (j : Fin 16) : Latch Bool :=
  match s.don with
  | .bot => .bot
  | .known false => .known false
  | .known true =>
    match memRead s.dm (segmentAddr g j).val with
    | .bot => .bot
    | .known b => .known (segmentBit b j)

/-- The observation `lit(g, j)` between two events: a fault is recorded and the observation has no value (R165,
R282). -/
def observeLit (g : Fin 8) (j : Fin 16) (s : State) : Host.Outcome State Fault Refusal :=
  match litValue s g j with
  | .bot => .next ((s.recordFault .unwrittenState).setSeen .noValue)
  | .known v => .next (s.setSeen (.lit v))

/-- The observation `level()` (R165). -/
def observeLevel (s : State) : Host.Outcome State Fault Refusal :=
  match s.brt with
  | .bot => .next ((s.recordFault .unwrittenState).setSeen .noValue)
  | .known b => .next (s.setSeen (.level b))

end Sys2Proof.Machine
end

