-- ==== Sys2Proof/Machine/KeyScan.lean ====
section
/-!
DEFINITION. Read bytes (43_key_scan.md).
-/

namespace Sys2Proof.Machine

/-- `S.SEQ <- KEY_READ(k + 1)` (R181). -/
def nextRead (k : Fin 4) : Seq := .keyRead k.succ

/-- `RDKEY` (R181): at `KEY_READ(4)` refused `READ_OVERRUN` (R183); else the chip returns `KM[k]` and nothing but `SEQ`
changes in it. The sent byte is 0xFF, which is what the decoder reads as this row (R184). -/
def execRdkey (s : State) : Host.Outcome State Fault Refusal :=
  match s.seq with
  | .keyRead k =>
    if h : k.val < 4 then .next ((s.setSeq (nextRead ⟨k.val, h⟩)).reply (keyDraw s ⟨k.val, h⟩))
    else refuse .readOverrun s
  | .idle => .fault .noReadPosition
  | .expectCmd => .fault .noReadPosition
  | .closed => .fault .noReadPosition
  | .addrData => .fault .noReadPosition

end Sys2Proof.Machine
end

