-- ==== Sys2Proof/Machine/Dispatch.lean ====
section
/-!
DEFINITION. One arm per instruction.
-/

namespace Sys2Proof.Machine

def exec (i : Instr) (s : State) : Host.Outcome State Fault Refusal :=
  match i with
  | .dsetW => Sys2Proof.Machine.execDsetW s
  | .dsetR => Sys2Proof.Machine.execDsetR s
  | .addr a => Sys2Proof.Machine.execAddr a s
  | .dctrl n b => Sys2Proof.Machine.execDctrl n b s
  | .data d => Sys2Proof.Machine.execData d s
  | .rdkey => Sys2Proof.Machine.execRdkey s
  | .reservedClass00 x => Sys2Proof.Machine.execReservedClass00 x s
  | .dsetReservedBit0 x => Sys2Proof.Machine.execDsetReservedBit0 x s
  | .dsetReservedBits54 r x => Sys2Proof.Machine.execDsetReservedBits54 r x s
  | .dsetFixedAddress t r => Sys2Proof.Machine.execDsetFixedAddress t r s
  | .dsetTestMode r => Sys2Proof.Machine.execDsetTestMode r s
  | .addrReservedBits54 r a => Sys2Proof.Machine.execAddrReservedBits54 r a s
  | .dctrlReservedBits54 r n b => Sys2Proof.Machine.execDctrlReservedBits54 r n b s

end Sys2Proof.Machine
end

