-- ==== Sys2Proof/Machine/Events.lean ====
section
/-!
DEFINITION. The host's events (40_transport.md), one step each, and the dispatch of every entry of the host's input.
-/

namespace Sys2Proof.Machine

/-- `CS_ASSERT` (R111). -/
def csAssert (s : State) : Host.Outcome State Fault Refusal :=
  match s.cs with
  | .asserted => refuse .csProtocol s
  | .deasserted => .next s.openTransaction

/-- `CS_DEASSERT` (R115). -/
def csDeassert (s : State) : Host.Outcome State Fault Refusal :=
  match s.cs with
  | .asserted => .next s.closeTransaction
  | .deasserted => refuse .csProtocol s

/-- `XFER(m)` (R112, R113): with chip-select asserted the byte is read by its position and run. -/
def transfer (m : Byte) (s : State) : Host.Outcome State Fault Refusal :=
  match s.cs with
  | .deasserted => refuse .xferIdle s
  | .asserted =>
    match decode s.seq m with
    | .error c => refuse c s
    | .ok i => exec i s

/-- The transcriber of a bit-level trace: whole bytes become exchanges, anything else is refused `PARTIAL_BYTE`
(R118). -/
def transcribe (l : List Bool) (s : State) : Host.Outcome State Fault Refusal :=
  match wholeBytes l with
  | none => refuse .partialByte s
  | some bs => .next (s.issue (bs.map .xfer))

/-- A host or board operation (R94). -/
def runOp (p : Params) (o : HostOp) (s : State) : Host.Outcome State Fault Refusal :=
  match o with
  | .init => hostInit p s
  | .setBrightness x => hostSetBrightness p x s
  | .setDisplayOn on => hostSetDisplayOn on s
  | .writeByte data address => hostWriteByte data address s
  | .writeBlock buf length address => hostWriteBlock buf length address s
  | .clearScreen => hostClearScreen s
  | .scanKeys => hostScanKeys s
  | .putc ch => boardPutc p ch s
  | .locate c => boardLocate p c s
  | .writeCell c ch => boardWriteCell p c ch s
  | .setIcon id => boardSetIcon id s
  | .clrIcon id => boardClrIcon id s
  | .clearAll => boardClearAll s
  | .customGlyph => boardCustomGlyph s

/-- One entry of the host's input. A bus byte is flipped once at the boundary (R116). -/
def runInput (p : Params) (e : Input) (s : State) : Host.Outcome State Fault Refusal :=
  match e with
  | .csAssert => csAssert s
  | .xfer m => transfer m s
  | .csDeassert => csDeassert s
  | .busXfer b => transfer (flipByte b) s
  | .bits l => transcribe l s
  | .observeLit g j => observeLit g j s
  | .observeLevel => observeLevel s
  | .op o => runOp p o s
  | .maskKeys => hostMaskKeys p s
  | .countKeys => hostCountKeys p s
  | .cursorNext => boardCursorNext p s
  | .cursorHome => boardCursorHome s

/-- One step: none in a refused run (R283); else the next entry of the host's input, in order (R63). A host that has
nothing to do leaves everything as it is (DESIGN CHOICE, notes/assumptions/1.md). -/
def stepWith (p : Params) (s : State) : Host.Outcome State Fault Refusal :=
  match s.refused with
  | some c => .refused (.runRefused c)
  | none =>
    match s.input with
    | [] => .next s
    | e :: rest => runInput p e (s.setInput rest)

/-- The next exchange is the table word's byte, at the position the table's row stands at: the host has selected the
chip, and the byte is the first it sends (for `RDKEY`, the first after `DSET.R`). -/
def State.placeByte (s : State) (b : Byte) : State :=
  { s with cs := .asserted, seq := tableSeq b, input := .xfer b :: s.input }

end Sys2Proof.Machine
end

