-- ==== Sys2Proof/Machine/Step.lean ====
section
/-!
DEFINITION. The machine's step, and where the next instruction is placed for it.
-/

namespace Sys2Proof.Machine

/-- One step of the machine, with the configuration of the run (R16). -/
def step (s : State) : Host.Outcome State Fault Refusal := stepWith Config.params s

/-- The machine fetches nothing (R30, R68): the host sends each byte. `s` with the table word `w` as the next byte the
host exchanges, at its row's position (notes/assumptions/3.md). -/
def State.withFetchWord (s : State) (nbits w : Nat) : State := s.placeByte (BitVec.ofNat 8 (w % 2 ^ nbits))

end Sys2Proof.Machine
end

