-- ==== Sys2Proof/Safety.lean ====
section
/-!
DEFINITION. What counts as a safe run, and the invariant every step keeps.
-/

namespace Sys2Proof

open Sys2Proof.Machine

/-- "not refused and no fault recorded", the premise of a claim about a run (R283). -/
abbrev Safe (s : State) : Prop := s.refused = none ∧ s.faults = []

/-- The mode latches are all unknown, or `RW` is known with `AINC = INC` and `TEST = NORMAL` (R27, R28, R164). -/
inductive ModesTogether : State → Prop where
  | unknown (s : State) (hr : s.rw = .bot) (ha : s.ainc = .bot) (ht : s.test = .bot) : ModesTogether s
  | known (s : State) (m : RwMode) (hr : s.rw = .known m) (ha : s.ainc = .known .inc) (ht : s.test = .known .normal) :
    ModesTogether s

/-- The invariant: relations between fields of the state that power-up has and every step keeps. -/
structure MachineInv (s : State) : Prop where
  /-- Display memory is in its canonical form. -/
  dm : s.dm.wf = true
  /-- So is the shadow buffer. -/
  shadow : s.shadow.wf = true
  /-- `SEQ` is `IDLE` exactly while chip-select is deasserted (R30, R31). -/
  idle : s.cs = .deasserted ↔ s.seq = .idle
  /-- After an address-setting command the pointer is known (R136). -/
  pointer : s.seq = .addrData → s.ptr ≠ .bot
  /-- R164. -/
  modes : ModesTogether s
  /-- Key bytes are read in read mode only (R132). -/
  keyMode : ∀ k, s.seq = .keyRead k → s.rw = .known .read
  /-- `DON` and `BRT` are written together (R29). -/
  display : s.don = .bot ↔ s.brt = .bot
  /-- The cursor stays within the board's columns (R240). -/
  column : s.col < Config.params.numCols
  /-- No byte is received before the first of a transaction (R201). -/
  rxStart : s.seq = .expectCmd → s.rx = []
  /-- In a read transaction the host has received the command byte's result and one byte for each key byte (R181). -/
  rxKeys : ∀ k : Fin 5, s.seq = .keyRead k → s.rx.length = k.val + 1
  /-- The host holds every byte it received, flipped once (R116). -/
  received : s.rx = s.busRx.map flipByte
  /-- A fault code stands in the set once (R20, R282). -/
  faults : s.faults.Nodup

/-- The byte exchanged by an entry of the host's input, in either view (R11, R116), none for an entry that exchanges
none. -/
def exchanged (e : Input) : Option Byte :=
  match e with
  | .xfer m => some m
  | .busXfer b => some (flipByte b)
  | .csAssert => none
  | .csDeassert => none
  | .bits _ => none
  | .observeLit _ _ => none
  | .observeLevel => none
  | .op _ => none
  | .maskKeys => none
  | .countKeys => none
  | .cursorNext => none
  | .cursorHome => none

/-- The code a command byte is refused with, by R91 read as arithmetic on the byte: bits 7:6 are `c / 64`, bits 5:4
`c / 16 % 4`, and so on. -/
def refusalByArithmetic (c : Nat) : Option RefusalCode :=
  if c / 64 = 0 then some .reservedCmd
  else if c / 64 = 1 then
    if c / 16 % 4 ≠ 0 ∨ c % 2 ≠ 0 then some .reservedBits
    else if c / 4 % 2 = 1 then some .fixedMode
    else if c / 8 % 2 = 1 then some .testMode
    else none
  else if c / 16 % 4 ≠ 0 then some .reservedBits
  else none

/-- The fields of the controller that a byte the chip returns could reach. -/
structure SameChip (s t : State) : Prop where
  dm : t.dm = s.dm
  ptr : t.ptr = s.ptr
  rw : t.rw = s.rw
  ainc : t.ainc = s.ainc
  test : t.test = s.test
  don : t.don = s.don
  brt : t.brt = s.brt
  cs : t.cs = s.cs
  seq : t.seq = s.seq

/-- The host's own fields. -/
structure SameHost (s t : State) : Prop where
  hDon : t.hDon = s.hDon
  hBrt : t.hBrt = s.hBrt
  shadow : t.shadow = s.shadow
  col : t.col = s.col
  keys : t.keys = s.keys

/-- The latches that only a data-setting or display-control command writes, and the marks of the run. -/
structure SameLatches (s t : State) : Prop where
  rw : t.rw = s.rw
  ainc : t.ainc = s.ainc
  test : t.test = s.test
  don : t.don = s.don
  brt : t.brt = s.brt
  refused : t.refused = s.refused
  faults : t.faults = s.faults

/-- The driver's operations, those of 44_host_operations.md (R203 to R216). -/
def isDriverOp (o : HostOp) : Bool :=
  match o with
  | .init => true
  | .setBrightness _ => true
  | .setDisplayOn _ => true
  | .writeByte _ _ => true
  | .writeBlock _ _ _ => true
  | .clearScreen => true
  | .scanKeys => true
  | .putc _ => false
  | .locate _ => false
  | .writeCell _ _ => false
  | .setIcon _ => false
  | .clrIcon _ => false
  | .clearAll => false
  | .customGlyph => false

end Sys2Proof
end

