-- ==== Sys2Proof/Certificates/Slice0/Obligations.lean ====
section
/-!
DEFINITION. The statements for the provers. Each docstring names the rule of spec/ it formalises, or the part of the
model it rests on. "Next state" equations write the whole next state, so each is a result, its frame and its completion.
The model's own choices stand in them so: a run counts one entry of the host's input a step (notes/assumptions/1.md);
`rx`, `busRx` and `draws` are the form in which the model holds a returned byte, as a chip byte and as the bus byte it came
in, and the next free value (2.md, 5.md), and where the rule says nothing of the returned byte, the equation leaves them
open.
-/

open Sys2Proof Sys2Proof.Machine

/-! ### Encoding -/

/-- Decoding an instruction's byte, at a position that accepts it, gives it back (R83 to R87, R89, R91). -/
def Obligations.DecodeOfEncodeIsTheInstruction : Prop :=
  ∀ (i : Instr) (q : Seq), i.WellFormed → accepts q i = true → decode q (encode i) = .ok i

/-- The other direction: what the decoder reads from a byte is well formed, stands at that position and encodes to that
byte, so no bit is dropped and no byte has two readings (R90, R91). -/
def Obligations.DecodedByteEncodesBack : Prop :=
  ∀ (q : Seq) (m : Byte) (i : Instr), decode q m = .ok i → i.WellFormed ∧ accepts q i = true ∧ encode i = m

/-- R91: the decode function of a command byte, its refusals and its three admitted forms. -/
def Obligations.CommandDecodeFollowsThePseudocode : Prop :=
  ∀ c : Byte,
    commandRefusal (decodeCommand c) = refusalByArithmetic c.toNat ∧
    (refusalByArithmetic c.toNat = none →
      decodeCommand c =
        (if c.toNat / 64 = 1 then (if c.toNat / 2 % 2 = 1 then .dsetR else .dsetW)
        else if c.toNat / 64 = 2 then .dctrl (decide (c.toNat / 8 % 2 = 1)) (BitVec.ofNat 3 (c.toNat % 8))
        else .addr (BitVec.ofNat 4 (c.toNat % 16))))

/-- Words written out from the formats of 30_encoding.md, one of every row of the opcode table. That the word 0b01110101,
with bit 0 and both bits 5:4 set, is read as the row for bit 0 and not as the row for bits 5:4 is the model's choice
(DESIGN CHOICE, notes/assumptions/14.md): R89, R91 and R135 join the two conditions and refuse both alike. -/
def Obligations.WordsDecodeAsWritten : Prop :=
  decode .expectCmd 0b01000000 = .ok .dsetW ∧ decode .expectCmd 0b01000010 = .ok .dsetR ∧
  decode .expectCmd 0b11001110 = .ok (.addr 0b1110) ∧ decode .expectCmd 0b10001011 = .ok (.dctrl true 0b011) ∧
  decode .expectCmd 0b10000100 = .ok (.dctrl false 0b100) ∧ decode .addrData 0b10110001 = .ok (.data 0b10110001) ∧
  decode (.keyRead 2) 0b11111111 = .ok .rdkey ∧ decode .expectCmd 0b00101101 = .ok (.reservedClass00 0b101101) ∧
  decode .expectCmd 0b01110101 = .ok (.dsetReservedBit0 0b11010) ∧
  decode .expectCmd 0b01100110 = .ok (.dsetReservedBits54 0b10 0b0110) ∧
  decode .expectCmd 0b01001110 = .ok (.dsetFixedAddress true true) ∧
  decode .expectCmd 0b01001010 = .ok (.dsetTestMode true) ∧
  decode .expectCmd 0b11011001 = .ok (.addrReservedBits54 0b01 0b1001) ∧
  decode .expectCmd 0b10111010 = .ok (.dctrlReservedBits54 0b11 true 0b010)

/-- R95: the bus byte of every admitted command; `flip4` reverses 4 bits. -/
def Obligations.BusBytesOfCommands : Prop :=
  let flip4 (n : Nat) : Nat := 8 * (n % 2) + 4 * (n / 2 % 2) + 2 * (n / 4 % 2) + n / 8 % 2
  flipByte (encode .dsetW) = 0x02 ∧ flipByte (encode .dsetR) = 0x42 ∧
  (∀ a : BitVec 4, (encode (.addr a)).toNat = 0xC0 + a.toNat ∧
    (flipByte (encode (.addr a))).toNat = 0x03 + 16 * flip4 a.toNat) ∧
  (∀ (n : Bool) (b : BitVec 3), (encode (.dctrl n b)).toNat = 0x80 + 8 * n.toNat + b.toNat ∧
    (flipByte (encode (.dctrl n b))).toNat = 0x01 + 16 * flip4 (8 * n.toNat + b.toNat))

/-- R10, R11, R53 and R117: bit reversal, the source's laws of it and the derived ones. The chip reads the line's bits
from bit 0 up, the host's transport reads the same bits from bit 7 down, so the bus byte is the flipped chip byte. -/
def Obligations.FlipReversesTheBits : Prop :=
  (∀ b0 b1 b2 b3 b4 b5 b6 b7 : Bool,
    lineBits (chipByteOfLine b0 b1 b2 b3 b4 b5 b6 b7) = [b0, b1, b2, b3, b4, b5, b6, b7] ∧
    busByteOfLine b0 b1 b2 b3 b4 b5 b6 b7 = flipByte (chipByteOfLine b0 b1 b2 b3 b4 b5 b6 b7)) ∧
  (∀ (b : Byte) (i : Nat), i < 8 → (flipByte b).getLsbD i = b.getLsbD (7 - i)) ∧
  (∀ b : Byte, flipByte (flipByte b) = b ∧ popcount (flipByte b) = popcount b) ∧
  (∀ a b : Byte, flipByte (a ||| b) = flipByte a ||| flipByte b ∧ flipByte (a &&& b) = flipByte a &&& flipByte b) ∧
  flipByte 0x01 = 0x80 ∧ flipByte 0x80 = 0x01 ∧ flipByte 0xAA = 0x55 ∧ flipByte 0x00 = 0x00 ∧ flipByte 0xFF = 0xFF

/-! ### The step and the transaction -/

/-- A step whose host exchanges a byte, with chip-select asserted, is `exec` of the instruction the decoder reads at the
position, after the entry is taken from the host's input (R63, R113). -/
def Obligations.StepRunsTheDecodedInstruction : Prop :=
  ∀ (s : State) (e : Input) (rest : List Input) (m : Byte) (i : Instr),
    s.refused = none → s.input = e :: rest → exchanged e = some m → s.cs = .asserted → decode s.seq m = .ok i →
    step s = exec i { s with input := rest }

/-- The table word placed for the step is the instruction the step runs. -/
def Obligations.PlacedWordRunsNext : Prop :=
  ∀ (s : State) (w : Nat) (i : Instr), s.refused = none → decodeTableWord 8 w = some i →
    step (s.withFetchWord 8 w) =
      exec i { s with cs := .asserted, seq := tableSeq (BitVec.ofNat 8 (w % 256)) }

/-- R111: chip-select is asserted and no other field changes (the host's receipts `rx` and `busRx` aside), or the event is refused
`CS_PROTOCOL`. -/
def Obligations.ChipSelectAssertion : Prop :=
  ∀ s : State,
    (s.cs = .deasserted → ∃ t : State, csAssert s = .next t ∧
      t = { s with cs := .asserted, seq := .expectCmd, rx := t.rx, busRx := t.busRx }) ∧
    (s.cs = .asserted → csAssert s = .refused (.event .csProtocol { s with refused := some .csProtocol }))

/-- R115: chip-select is deasserted and everything else keeps its value, wherever in the transaction; or the event is
refused `CS_PROTOCOL`. -/
def Obligations.ChipSelectDeassertion : Prop :=
  ∀ s : State,
    (s.cs = .asserted → csDeassert s = .next { s with cs := .deasserted, seq := .idle }) ∧
    (s.cs = .deasserted → csDeassert s = .refused (.event .csProtocol { s with refused := some .csProtocol }))

/-- R112, R113, R116: a byte while chip-select is deasserted is refused; while it is asserted, the dispatch on `SEQ`: a
command, a data byte, a read byte or a refusal, and the byte the host receives for a command or data byte, a free value
(R114). On the bus every byte is flipped once in each direction: the bus byte `flip(m)` is the exchange of chip byte `m`,
and of the bus byte `r` it receives the host holds `flip(r)`. -/
def Obligations.ExchangeDispatchesOnSequencer : Prop :=
  (∀ (m : Byte) (s : State), s.cs = .deasserted →
    transfer m s = .refused (.event .xferIdle { s with refused := some .xferIdle })) ∧
  ∀ (m : Byte) (s : State), s.cs = .asserted →
    (s.seq = .expectCmd → transfer m s = exec (decodeCommand m) s) ∧
    (s.seq = .addrData → transfer m s = exec (.data m) s) ∧
    (∀ k, s.seq = .keyRead k → transfer m s =
      if m = 0xFF then exec .rdkey s
      else if k = 4 then .refused (.event .readOverrun { s with refused := some .readOverrun })
      else .refused (.event .readMosi { s with refused := some .readMosi })) ∧
    (s.seq = .closed → transfer m s = .refused (.event .trailingByte { s with refused := some .trailingByte })) ∧
    (∀ t, s.seq = .expectCmd ∨ s.seq = .addrData → transfer m s = .next t →
      t.rx = s.rx ++ [Config.lineByte s.draws] ∧ t.busRx = s.busRx ++ [flipByte (Config.lineByte s.draws)]) ∧
    (∀ p, runInput p (.busXfer (flipByte m)) s = runInput p (.xfer m) s) ∧
    (∀ p b0 b1 b2 b3 b4 b5 b6 b7, runInput p (.busXfer (busByteOfLine b0 b1 b2 b3 b4 b5 b6 b7)) s =
      runInput p (.xfer (chipByteOfLine b0 b1 b2 b3 b4 b5 b6 b7)) s) ∧
    (∀ t, transfer m s = .next t → ∃ r, t.busRx = s.busRx ++ [r] ∧ t.rx = s.rx ++ [flipByte r])

/-- Bits that are whole bytes, least significant first (R11, R53), become those bytes' exchanges, in order and ahead of
the host's other input, and any other count of bits is refused `PARTIAL_BYTE` (R118, R281). That an entry of bits becomes
entries of the input, and that the count is looked at before chip-select, is the model's reading (DEDUCED,
notes/assumptions/20.md). -/
def Obligations.TranscriberTakesWholeBytes : Prop :=
  ∀ (s : State),
    (∀ bs : List Byte, transcribe (bs.flatMap lineBits) s = .next { s with input := bs.map .xfer ++ s.input }) ∧
    (∀ l : List Bool, l.length % 8 ≠ 0 →
      transcribe l s = .refused (.event .partialByte { s with refused := some .partialByte }))

/-- R284: one code per event, in the order it gives. The bytes of `EXPECT_CMD` are refused in the order of R91. -/
def Obligations.RefusalOrder : Prop :=
  ∀ (m : Byte) (s : State),
    let stop (c : RefusalCode) : Host.Outcome State Fault Refusal := .refused (.event c { s with refused := some c })
    (s.cs = .deasserted → transfer m s = stop .xferIdle ∧ csDeassert s = stop .csProtocol) ∧
    (s.cs = .asserted → csAssert s = stop .csProtocol) ∧
    (s.cs = .asserted → s.seq = .closed → transfer m s = stop .trailingByte) ∧
    (s.cs = .asserted → s.seq = .keyRead 4 → transfer m s = stop .readOverrun) ∧
    (s.cs = .asserted → (∃ k : Fin 5, s.seq = .keyRead k ∧ k ≠ 4) → m ≠ 0xFF → transfer m s = stop .readMosi) ∧
    (s.cs = .asserted → s.seq = .addrData → s.rw = .bot → transfer m s = stop .modeUnknown) ∧
    (s.cs = .asserted → s.seq = .addrData → s.rw ≠ .bot → s.ptr = .known 16 → transfer m s = stop .writeOverrun) ∧
    (∀ c, s.cs = .asserted → s.seq = .expectCmd → refusalByArithmetic m.toNat = some c → transfer m s = stop c) ∧
    (∀ id : Nat, id / 2 ^ 16 ≥ 8 → boardSetIcon id s = stop .iconGrid ∧ boardClrIcon id s = stop .iconGrid) ∧
    (∀ id : Nat, ∀ h : id / 2 ^ 16 < 8, gridWord s.shadow ⟨id / 2 ^ 16, h⟩ = .bot →
      boardSetIcon id s = stop .shadowUnknown ∧ boardClrIcon id s = stop .shadowUnknown)

/-! ### Commands -/

/-- R131: `DSET.W`. The whole next state, whatever the mode was; then a further byte is refused. -/
def Obligations.WriteModeCommand : Prop :=
  encode .dsetW = 0x40 ∧ flipByte 0x40 = 0x02 ∧ decode .expectCmd 0x40 = .ok .dsetW ∧
  ∀ s : State, ∃ t : State, exec .dsetW s = .next t ∧
    t = { s with rw := .known .write, ainc := .known .inc, test := .known .normal, seq := .closed,
                 rx := t.rx, busRx := t.busRx, draws := t.draws } ∧
    (∀ m, t.cs = .asserted → transfer m t = .refused (.event .trailingByte { t with refused := some .trailingByte }))

/-- R132: `DSET.R`. The whole next state; read mode outlives the transaction, and a fifth read byte is refused. -/
def Obligations.ReadModeCommand : Prop :=
  encode .dsetR = 0x42 ∧ flipByte 0x42 = 0x42 ∧ decode .expectCmd 0x42 = .ok .dsetR ∧
  (∀ s : State, ∃ t : State, exec .dsetR s = .next t ∧
    t = { s with rw := .known .read, ainc := .known .inc, test := .known .normal, seq := .keyRead 0,
                 rx := t.rx, busRx := t.busRx, draws := t.draws } ∧
    (t.cs = .asserted → csDeassert t = .next { t with cs := .deasserted, seq := .idle })) ∧
  (∀ (d : Byte) (s u : State), s.rw = .known .read → exec (.data d) s = .next u → u.dm = s.dm ∧ u.rw = .known .read) ∧
  (∀ (m : Byte) (s : State), s.cs = .asserted → s.seq = .keyRead 4 →
    transfer m s = .refused (.event .readOverrun { s with refused := some .readOverrun }))

/-- R136: `ADDR a`, admitted in every mode. The whole next state; a data byte after it in an unknown mode, or at
`PTR` = 16, is refused. -/
def Obligations.AddressCommand : Prop :=
  ∀ (a : BitVec 4), encode (.addr a) = 0xC0 ||| a.zeroExtend 8 ∧ decode .expectCmd (encode (.addr a)) = .ok (.addr a) ∧
  ∀ s : State, ∃ t : State, exec (.addr a) s = .next t ∧
    t = { s with ptr := .known ⟨a.toNat, by omega⟩, seq := .addrData,
                 rx := t.rx, busRx := t.busRx, draws := t.draws } ∧
    (∀ d, s.rw = .bot → exec (.data d) t = .refused (.event .modeUnknown { t with refused := some .modeUnknown })) ∧
    (∀ d u, u.rw ≠ .bot → u.ptr = .known 16 →
      exec (.data d) u = .refused (.event .writeOverrun { u with refused := some .writeOverrun }))

/-- R138: `DCTRL on, b`, both fields every time, in every mode. The whole next state; then a further byte is refused. -/
def Obligations.DisplayControlCommand : Prop :=
  ∀ (n : Bool) (b : BitVec 3),
    (encode (.dctrl n b)).toNat = 0x80 + 8 * n.toNat + b.toNat ∧
    decode .expectCmd (encode (.dctrl n b)) = .ok (.dctrl n b) ∧
    ∀ s : State, ∃ t : State, exec (.dctrl n b) s = .next t ∧
      t = { s with don := .known n, brt := .known b, seq := .closed,
                   rx := t.rx, busRx := t.busRx, draws := t.draws } ∧
      (∀ m, t.cs = .asserted → transfer m t = .refused (.event .trailingByte { t with refused := some .trailingByte }))

/-- R89, R133, R134, R135, R137, R139, R140: which command bytes are refused, and with which code; no state changes but
the mark of the run. -/
def Obligations.RefusedCommandBytes : Prop :=
  ∀ (c : Byte) (s : State), s.cs = .asserted → s.seq = .expectCmd →
    let stop (r : RefusalCode) : Host.Outcome State Fault Refusal := .refused (.event r { s with refused := some r })
    (c.toNat < 0x40 → transfer c s = stop .reservedCmd) ∧
    (c ∈ ([0x41, 0x43, 0x45, 0x47, 0x49, 0x4B, 0x4D, 0x4F] : List Byte) ∨ (0x50 ≤ c.toNat ∧ c.toNat ≤ 0x7F) →
      transfer c s = stop .reservedBits) ∧
    (c ∈ ([0x44, 0x46, 0x4C, 0x4E] : List Byte) → transfer c s = stop .fixedMode) ∧
    (c ∈ ([0x48, 0x4A] : List Byte) → transfer c s = stop .testMode) ∧
    (0xD0 ≤ c.toNat → transfer c s = stop .reservedBits) ∧
    (0x90 ≤ c.toNat ∧ c.toNat ≤ 0xBF → transfer c s = stop .reservedBits)

/-- The seven refused rows of the opcode table stop on every path, each with its code (R133 to R135, R137, R139,
R140). -/
def Obligations.RefusedRowsStop : Prop :=
  ∀ s : State,
    let stop (r : RefusalCode) : Host.Outcome State Fault Refusal := .refused (.event r { s with refused := some r })
    (∀ x, exec (.reservedClass00 x) s = stop .reservedCmd) ∧
    (∀ x, exec (.dsetReservedBit0 x) s = stop .reservedBits) ∧
    (∀ r x, exec (.dsetReservedBits54 r x) s = stop .reservedBits) ∧
    (∀ t r, exec (.dsetFixedAddress t r) s = stop .fixedMode) ∧
    (∀ r, exec (.dsetTestMode r) s = stop .testMode) ∧
    (∀ r a, exec (.addrReservedBits54 r a) s = stop .reservedBits) ∧
    (∀ r n b, exec (.dctrlReservedBits54 r n b) s = stop .reservedBits)

/-! ### Data bytes and the display -/

/-- R161, R163: a data byte in write mode: the addressed byte takes it, every other byte of display memory reads as
before, the pointer advances, and nothing else changes in the chip; in read mode only the pointer advances; at
`PTR` = 16 the byte is refused in either mode, and in an unknown mode at every `PTR`. -/
def Obligations.DataByteWritesDisplayMemory : Prop :=
  ∀ (d : Byte) (s : State),
    (∀ a : Fin 16, s.rw = .known .write → s.ptr = .known a.castSucc → ∃ t : State, exec (.data d) s = .next t ∧
      memRead t.dm a.val = .known d ∧ (∀ b, b ≠ a.val → memRead t.dm b = memRead s.dm b) ∧
      t = { s with dm := t.dm, ptr := .known a.succ, rx := t.rx, busRx := t.busRx, draws := t.draws }) ∧
    (∀ a : Fin 16, s.rw = .known .read → s.ptr = .known a.castSucc → ∃ t : State, exec (.data d) s = .next t ∧
      t = { s with ptr := .known a.succ, rx := t.rx, busRx := t.busRx, draws := t.draws }) ∧
    (s.rw = .bot → exec (.data d) s = .refused (.event .modeUnknown { s with refused := some .modeUnknown })) ∧
    (∀ m, s.rw = .known m → s.ptr = .known 16 →
      exec (.data d) s = .refused (.event .writeOverrun { s with refused := some .writeOverrun }))

/-- R162, R186: what read mode does to data bytes, over any number of them: they leave display memory as it is, whatever
they are, and only the pointer moves, up to the same refusal at 16; the mode stays. -/
def Obligations.DataBytesDiscardedInReadMode : Prop :=
  ∀ (bs : List Byte) (s : State) (a : Nat) (rest : List Input), s.refused = none → s.cs = .asserted →
    s.seq = .addrData → s.rw = .known .read → (∀ p : Fin 17, p.val = a → s.ptr = .known p) →
    s.input = bs.map .xfer ++ rest →
    (a + bs.length ≤ 16 → ∃ t : State, core.run bs.length s = .next t ∧ t.dm = s.dm ∧ t.rw = .known .read ∧
      t.seq = .addrData ∧ t.input = rest ∧ ∀ p : Fin 17, p.val = a + bs.length → t.ptr = .known p) ∧
    (a ≤ 16 → 16 < a + bs.length → ∃ t : State, core.run (16 - a + 1) s = .refused (.event .writeOverrun t) ∧
      t.dm = s.dm ∧ t.rw = .known .read ∧ t.ptr = .known 16)

/-- R164: a data byte before any data-setting command is refused; where `RW` is known, so are `AINC` and `TEST` (in every
state that meets the invariant). -/
def Obligations.ModeUnknownBeforeDataSetting : Prop :=
  (∀ (d : Byte) (s : State), s.rw = .bot →
    exec (.data d) s = .refused (.event .modeUnknown { s with refused := some .modeUnknown })) ∧
  (∀ (s : State), MachineInv s → ∀ m, s.rw = .known m → s.ainc = .known .inc ∧ s.test = .known .normal)

/-- R60: writing the same value twice to one address is writing it once. -/
def Obligations.DisplayWritesAreIdempotent : Prop :=
  ∀ (m : Memory) (a : Fin 16) (v : Byte), memWrite (memWrite m a v) a v = memWrite m a v

/-- The canonical form is canonical: two files in it that read alike are equal. -/
def Obligations.CanonicalMemoriesAreDeterminedByReads : Prop :=
  ∀ m n : Memory, m.wf = true → n.wf = true → (∀ a : Fin 16, memRead m a.val = memRead n a.val) → m = n

/-- R160: the grid word is defined only when both bytes are known; bit i of the even byte is its bit i, bit i of the odd
byte its bit 8 + i; with the display on, bit `j` of the word drives segment `j` of the grid. -/
def Obligations.GridWordOfTwoBytes : Prop :=
  ∀ (m : Memory) (g : Fin 8),
    (∀ lo hi : Byte, memRead m (2 * g.val) = .known lo → memRead m (2 * g.val + 1) = .known hi →
      ∃ w, gridWord m g = .known w ∧ w.toNat = lo.toNat + 256 * hi.toNat ∧
        ∀ i < 8, w.getLsbD i = lo.getLsbD i ∧ w.getLsbD (8 + i) = hi.getLsbD i) ∧
    (memRead m (2 * g.val) = .bot ∨ memRead m (2 * g.val + 1) = .bot → gridWord m g = .bot) ∧
    (∀ (s : State) (j : Fin 16) (w : BitVec 16), s.dm = m → s.don = .known true → gridWord m g = .known w →
      litValue s g j = .known (w.getLsbD j.val))

/-- The display observations, their values and their faults (R165, R166). An observation that faults records code 101 once
and has no value (R282, R283). That the run goes on after it, in a next state whose `seen` is `noValue`, is the model's
reading (DEDUCED, with `seen` a DESIGN CHOICE: notes/assumptions/6.md). -/
def Obligations.DisplayObservation : Prop :=
  ∀ (s : State) (g : Fin 8) (j : Fin 16),
    let faulted : State :=
      { s with faults := if FaultCode.unwrittenState ∈ s.faults then s.faults else s.faults ++ [.unwrittenState],
               seen := .noValue }
    (s.don = .bot → observeLit g j s = .next faulted) ∧
    (s.don = .known false → observeLit g j s = .next { s with seen := .lit false }) ∧
    (s.don = .known true → memRead s.dm (2 * g.val + j.val / 8) = .bot → observeLit g j s = .next faulted) ∧
    (∀ b, s.don = .known true → memRead s.dm (2 * g.val + j.val / 8) = .known b →
      observeLit g j s = .next { s with seen := .lit (b.getLsbD (j.val % 8)) }) ∧
    (s.brt = .bot → observeLevel s = .next faulted) ∧
    (∀ l, s.brt = .known l → observeLevel s = .next { s with seen := .level l })

/-- R167: display off keeps display memory and the pointer, and every segment is dark; a data byte is written while the
display is off; turned on again, with or without a byte written meanwhile, the display shows the memory as it then
stands: every segment whose byte is known has that byte's bit. -/
def Obligations.DisplayOffKeepsMemory : Prop :=
  ∀ (s : State) (b b' : BitVec 3) (d : Byte),
    let dark (u : State) : Prop := ∀ (g : Fin 8) (j : Fin 16), litValue u g j = .known false
    let shownAgain (u : State) : Prop := ∃ v : State, exec (.dctrl true b') u = .next v ∧ v.dm = u.dm ∧
      ∀ (g : Fin 8) (j : Fin 16) (c : Byte), memRead u.dm (2 * g.val + j.val / 8) = .known c →
        litValue v g j = .known (c.getLsbD (j.val % 8))
    ∃ t : State, exec (.dctrl false b) s = .next t ∧ t.dm = s.dm ∧ t.ptr = s.ptr ∧ dark t ∧ shownAgain t ∧
      ∀ a : Fin 16, s.rw = .known .write → s.ptr = .known a.castSucc →
        ∃ u : State, exec (.data d) t = .next u ∧ u.don = .known false ∧ memRead u.dm a.val = .known d ∧
          (∀ x, x ≠ a.val → memRead u.dm x = memRead s.dm x) ∧ dark u ∧ shownAgain u

/-- R170, and R64 between its bytes: a block write in write mode. After `n` of its data bytes exactly those are written;
after the transaction all are, the pointer stands behind them, and nothing else of the chip or the host's own fields has
changed; a block that goes past address 15 writes up to 15 and is refused. -/
def Obligations.BlockWriteTransaction : Prop :=
  ∀ (s : State) (a : BitVec 4) (bs : List Byte) (rest : List Input),
    s.refused = none → s.cs = .deasserted → s.rw = .known .write → s.input = blockEvents a bs ++ rest →
    (∀ n : Nat, n ≤ bs.length → a.toNat + n ≤ 16 → ∃ u : State, core.run (n + 2) s = .next u ∧
      (∀ (i : Nat) (h : i < bs.length), i < n → memRead u.dm (a.toNat + i) = .known bs[i]) ∧
      (∀ b, b < a.toNat ∨ a.toNat + n ≤ b → memRead u.dm b = memRead s.dm b) ∧
      u.seq = .addrData ∧ (∀ p : Fin 17, p.val = a.toNat + n → u.ptr = .known p)) ∧
    (a.toNat + bs.length ≤ 16 → ∃ t : State, core.run (bs.length + 3) s = .next t ∧
      (∀ (i : Nat) (h : i < bs.length), memRead t.dm (a.toNat + i) = .known bs[i]) ∧
      (∀ b, b < a.toNat ∨ a.toNat + bs.length ≤ b → memRead t.dm b = memRead s.dm b) ∧
      (∀ p : Fin 17, p.val = a.toNat + bs.length → t.ptr = .known p) ∧
      t.cs = .deasserted ∧ t.seq = .idle ∧ t.input = rest ∧ SameLatches s t ∧ SameHost s t) ∧
    (16 < a.toNat + bs.length → ∃ t : State,
      core.run (16 - a.toNat + 3) s = .refused (.event .writeOverrun t) ∧ t.refused = some .writeOverrun ∧
      (∀ (i : Nat) (h : i < bs.length), a.toNat + i < 16 → memRead t.dm (a.toNat + i) = .known bs[i]) ∧
      (∀ b, b < a.toNat → memRead t.dm b = memRead s.dm b) ∧ t.ptr = .known 16)

/-- R316: in read mode the same transaction is admitted and loses every byte of its data. -/
def Obligations.ReadModeLosesABlockWrite : Prop :=
  ∀ (s : State) (a : BitVec 4) (bs : List Byte) (rest : List Input),
    s.refused = none → s.cs = .deasserted → s.rw = .known .read → s.input = blockEvents a bs ++ rest →
    a.toNat + bs.length ≤ 16 → ∃ t : State, core.run (bs.length + 3) s = .next t ∧ t.dm = s.dm ∧
      (∀ p : Fin 17, p.val = a.toNat + bs.length → t.ptr = .known p) ∧
      t.cs = .deasserted ∧ t.seq = .idle ∧ t.input = rest ∧ SameLatches s t ∧ SameHost s t

/-! ### Key reads -/

/-- R181, R183, R184: a read byte returns the key-memory byte of its position, on the bus its flip, and changes nothing of the chip but `SEQ`; a
fifth is refused whatever is sent, and before it any byte but 0xFF is. The byte is a draw (R182), in the model's form the
free value at the counter `draws`, which the read advances, so that the next draw is a fresh one
(notes/assumptions/2.md). -/
def Obligations.ReadByteReturnsKeyMemory : Prop :=
  ∀ s : State,
    (∀ k : Fin 4, s.seq = .keyRead k.castSucc → ∃ t : State, exec .rdkey s = .next t ∧
      t = { s with
        seq := .keyRead k.succ, rx := s.rx ++ [Config.keyMemory k s.draws],
        busRx := s.busRx ++ [flipByte (Config.keyMemory k s.draws)], draws := s.draws + 1 }) ∧
    (s.seq = .keyRead 4 → exec .rdkey s = .refused (.event .readOverrun { s with refused := some .readOverrun })) ∧
    (∀ m : Byte, s.cs = .asserted → s.seq = .keyRead 4 →
      transfer m s = .refused (.event .readOverrun { s with refused := some .readOverrun })) ∧
    (∀ (m : Byte) (k : Fin 4), s.cs = .asserted → s.seq = .keyRead k.castSucc → m ≠ 0xFF →
      transfer m s = .refused (.event .readMosi { s with refused := some .readMosi }))

/-- A whole read transaction (R52, R56, R116, R132, R181): the host receives one free byte and then key-memory bytes 0, 1,
2, 3, each on the bus as its flip; the chip is left in read mode with display memory, pointer and display latch as they
were. -/
def Obligations.ReadTransactionReturnsFourBytes : Prop :=
  ∀ (s : State) (rest : List Input), s.refused = none → s.cs = .deasserted →
    s.input = xact [0x42, 0xFF, 0xFF, 0xFF, 0xFF] ++ rest →
    let returned : List Byte := [Config.lineByte s.draws, Config.keyMemory 0 (s.draws + 1),
      Config.keyMemory 1 (s.draws + 2), Config.keyMemory 2 (s.draws + 3), Config.keyMemory 3 (s.draws + 4)]
    core.run 7 s = .next { s with
      rw := .known .read, ainc := .known .inc, test := .known .normal, seq := .idle, cs := .deasserted, input := rest,
      draws := s.draws + 5, rx := returned, busRx := returned.map flipByte }

/-- R211 to R213, R215: `scanKeys` from its call to its result: its traffic, one read transaction and one restore; the
masked block, the verdict by the policy, and the controller back in write mode, whatever the keys are, with display
memory, pointer and display latch as they were. -/
def Obligations.ScanKeysOperation : Prop :=
  ∀ (s : State) (rest : List Input), s.refused = none → s.cs = .deasserted → s.input = .op .scanKeys :: rest →
    (∃ (u : State) (es : List Input), step s = .next u ∧ u.input = es ++ rest ∧
      busTrace es = [[0x42, 0xFF, 0xFF, 0xFF, 0xFF], [0x02]] ∧ es.length = 12) ∧
    ∃ t : State, core.run 13 s = .next t ∧
      (∃ kd : Vector Byte 4,
        kd = #v[Config.keyMemory 0 (s.draws + 1) &&& Config.keyMask, Config.keyMemory 1 (s.draws + 2) &&& Config.keyMask,
          Config.keyMemory 2 (s.draws + 3) &&& Config.keyMask, Config.keyMemory 3 (s.draws + 4) &&& Config.keyMask] ∧
        t.keys = .result (keyPressed Config.keyPolicy kd) kd) ∧
      t.rw = .known .write ∧ t.ainc = .known .inc ∧ t.test = .known .normal ∧ t.cs = .deasserted ∧ t.seq = .idle ∧
      t.input = rest ∧ t.dm = s.dm ∧ t.ptr = s.ptr ∧ t.don = s.don ∧ t.brt = s.brt ∧ t.refused = none ∧
      t.faults = s.faults

/-- R214, R216: the count is the number of set bits of the four bytes, at most 32, and bits outside the mask never count;
`STRICT` reports exactly one, and `PERMISSIVE` at least one. -/
def Obligations.KeypressVerdict : Prop :=
  (∀ kd : Vector Byte 4,
    keyCount kd = ∑ i : Fin 4, ((List.range 8).filter fun j => kd[i.val].getLsbD j).length ∧ keyCount kd ≤ 32 ∧
    (keyPressed .strict kd = true ↔ keyCount kd = 1) ∧ (keyPressed .permissive kd = true ↔ 1 ≤ keyCount kd)) ∧
  ∀ (mask : Byte) (r q : Vector Byte 4),
    (∀ (i : Fin 4) (j : Nat), mask.getLsbD j = true → r[i.val].getLsbD j = q[i.val].getLsbD j) →
    keyCount (r.map (· &&& mask)) = keyCount (q.map (· &&& mask))

/-! ### Reset, marks of the run, whole-machine rules -/

/-- R38: every field of S at power-up. -/
def Obligations.PowerUpState : Prop :=
  (∀ a, memRead State.reset.dm a = .bot) ∧ State.reset.ptr = .bot ∧ State.reset.rw = .bot ∧ State.reset.ainc = .bot ∧
  State.reset.test = .bot ∧ State.reset.don = .bot ∧ State.reset.brt = .bot ∧ State.reset.cs = .deasserted ∧
  State.reset.seq = .idle ∧ State.reset.refused = none ∧ State.reset.faults = []

/-- The invariant holds at power-up. -/
def Obligations.PowerUpMeetsTheInvariant : Prop := MachineInv State.reset

/-- Every step keeps the invariant: canonical memories, `SEQ` idle exactly while deselected, a known pointer where data
bytes are taken, mode latches known together with increment addressing and normal mode, read mode while keys are read,
display latch known as a whole, the cursor on the board, one received byte per exchange of a read transaction, every
received byte held flipped once. -/
def Obligations.EveryStepKeepsTheInvariant : Prop := ∀ s t : State, MachineInv s → step s = .next t → MachineInv t

/-- R283: a refused run has no further step, the state of a refused step is marked, and a recorded fault is never
removed. -/
def Obligations.RefusalsAndFaultsAreSticky : Prop :=
  (∀ (s : State) (c : RefusalCode), s.refused = some c → step s = .refused (.runRefused c)) ∧
  (∀ (s t : State) (c : RefusalCode), step s = .refused (.event c t) →
    t.refused = some c ∧ step t = .refused (.runRefused c)) ∧
  (∀ (s t : State) (f : FaultCode), step s = .next t → f ∈ s.faults → f ∈ t.faults)

/-- A refusal changes nothing but the mark: the entry is taken from the host's input and every other field is as it was
(R281). -/
def Obligations.RefusalChangesOnlyTheMark : Prop :=
  ∀ (s t : State) (c : RefusalCode), step s = .refused (.event c t) →
    ∃ e rest, s.input = e :: rest ∧ t = { s with input := rest, refused := some c }

/-- Display memory is written only by data bytes of an address-setting transaction in write mode (R21), at the pointer's
address, whatever else the machine does in a step. -/
def Obligations.DisplayMemoryWrittenByDataBytesOnly : Prop :=
  ∀ s t : State, step s = .next t → t.dm ≠ s.dm →
    ∃ (e : Input) (rest : List Input) (m : Byte) (a : Fin 16), s.input = e :: rest ∧ exchanged e = some m ∧
      s.cs = .asserted ∧ s.seq = .addrData ∧ s.rw = .known .write ∧ s.ptr = .known a.castSucc ∧
      t.dm = memWrite s.dm a m

/-- The mode latches are written by the admitted data-setting commands and by nothing else (R26, R27, R28, R141). -/
def Obligations.ModesWrittenByDataSettingOnly : Prop :=
  ∀ s t : State, step s = .next t → t.rw ≠ s.rw ∨ t.ainc ≠ s.ainc ∨ t.test ≠ s.test →
    ∃ (e : Input) (rest : List Input) (m : Byte), s.input = e :: rest ∧ exchanged e = some m ∧
      s.cs = .asserted ∧ s.seq = .expectCmd ∧ (m = 0x40 ∨ m = 0x42)

/-- The display-control latch is written by display-control commands and by nothing else (R29, R141); chip-select by the
host's two events only (R32). -/
def Obligations.DisplayLatchAndChipSelectWriters : Prop :=
  ∀ s t : State, step s = .next t →
    (t.don ≠ s.don ∨ t.brt ≠ s.brt →
      ∃ (e : Input) (rest : List Input) (m : Byte), s.input = e :: rest ∧ exchanged e = some m ∧
        s.cs = .asserted ∧ s.seq = .expectCmd ∧ m.toNat / 16 = 8 ∧
        t.don = .known (m.getLsbD 3) ∧ t.brt = .known (BitVec.ofNat 3 (m.toNat % 8))) ∧
    (t.cs ≠ s.cs → ∃ rest, (s.input = .csAssert :: rest ∧ t.cs = .asserted) ∨
      (s.input = .csDeassert :: rest ∧ t.cs = .deasserted))

/-- The bytes the chip returns never reach the chip, nor decide what the host does next (R60, R114, R182): with other
received bytes, as many, and other free values to come, a step completes too, and leaves the chip, the marks of the run,
the host's input and the count of received bytes alike. -/
def Obligations.ReturnedBytesNeverReachTheChip : Prop :=
  ∀ (s t : State) (n : Nat) (l k : List Byte), l.length = s.rx.length → k.length = s.busRx.length →
    step s = .next t →
    ∃ u, step { s with draws := n, rx := l, busRx := k } = .next u ∧ SameChip t u ∧ u.refused = t.refused ∧
      u.faults = t.faults ∧ u.input = t.input ∧ u.rx.length = t.rx.length ∧ u.busRx.length = t.busRx.length

/-! ### Driver operations -/

/-- R203: `init`, from its call to its end: display on at the default brightness, write mode, auto-increment, normal mode;
display memory and the pointer as they were. -/
def Obligations.InitOperation : Prop :=
  ∀ (s : State) (rest : List Input), s.refused = none → s.cs = .deasserted → s.input = .op .init :: rest →
    ∃ t : State, core.run 7 s = .next t ∧ t = { s with
      hDon := true, hBrt := Config.brtDefault, don := .known true, brt := .known Config.brtDefault,
      rw := .known .write, ainc := .known .inc, test := .known .normal, cs := .deasserted, seq := .idle, input := rest,
      rx := t.rx, busRx := t.busRx, draws := t.draws }

/-- R204, R205, R206: the setters store the host's field, masked to three bits for the brightness, and send both fields;
the controller ends with them, and nothing else of chip or host changes. -/
def Obligations.DisplayControlOperations : Prop :=
  ∀ (s : State) (rest : List Input), s.refused = none → s.cs = .deasserted →
    let endsWith (on : Bool) (b : BitVec 3) : Prop := ∃ t : State, core.run 4 s = .next t ∧ t = { s with
      hDon := on, hBrt := b, don := .known on, brt := .known b, cs := .deasserted, seq := .idle, input := rest,
      rx := t.rx, busRx := t.busRx, draws := t.draws }
    (∀ x : Byte, s.input = .op (.setBrightness (some x)) :: rest → endsWith s.hDon (BitVec.ofNat 3 (x.toNat % 8))) ∧
    (s.input = .op (.setBrightness none) :: rest → endsWith s.hDon Config.brtDefault) ∧
    (∀ on : Bool, s.input = .op (.setDisplayOn on) :: rest → endsWith on s.hBrt)

/-- R207, R208, R209: the block operations: the address is masked, the length clamped (16 and 0 where they are left out),
the data taken from the target address on, and no other byte of display memory is touched; with no data byte the
address alone is set. A byte written in read mode is lost. -/
def Obligations.BlockOperations : Prop :=
  ∀ (s : State) (rest : List Input), s.refused = none → s.cs = .deasserted →
    (∀ (d : Byte) (address : Nat), s.rw = .known .write → s.input = .op (.writeByte d address) :: rest →
      ∃ t : State, core.run 5 s = .next t ∧ memRead t.dm (address % 16) = .known d ∧
        (∀ b, b ≠ address % 16 → memRead t.dm b = memRead s.dm b) ∧ t.input = rest ∧ t.cs = .deasserted ∧
        SameLatches s t) ∧
    (∀ (d : Byte) (address : Nat), s.rw = .known .read → s.input = .op (.writeByte d address) :: rest →
      ∃ t : State, core.run 5 s = .next t ∧ t.dm = s.dm ∧ t.input = rest ∧ t.cs = .deasserted ∧ SameLatches s t) ∧
    (∀ (buf : Vector Byte 16) (length address : Option Nat), s.rw = .known .write →
      s.input = .op (.writeBlock buf length address) :: rest →
      let a := address.getD 0 % 16
      let n := min (length.getD 16) (16 - a)
      ∃ t : State, core.run (n + 4) s = .next t ∧
        (∀ (b : Nat) (h : b < 16), a ≤ b → b < a + n → memRead t.dm b = .known buf[b]) ∧
        (∀ b, b < a ∨ a + n ≤ b → memRead t.dm b = memRead s.dm b) ∧ t.input = rest ∧
        (∀ p : Fin 17, p.val = a + n → t.ptr = .known p) ∧ t.cs = .deasserted ∧ SameLatches s t)

/-- R210: `clearScreen` in write mode clears every byte and leaves `PTR` = 16. -/
def Obligations.ClearScreenOperation : Prop :=
  ∀ (s : State) (rest : List Input), s.refused = none → s.cs = .deasserted → s.rw = .known .write →
    s.input = .op .clearScreen :: rest →
    ∃ t : State, core.run 20 s = .next t ∧ (∀ a : Fin 16, memRead t.dm a.val = .known 0) ∧ t.ptr = .known 16 ∧
      t.input = rest ∧ t.cs = .deasserted ∧ t.seq = .idle ∧ SameLatches s t ∧ SameHost s t

/-- R221: the bus traces of the driver's operations, called with nothing else to do, in bus bytes. -/
def Obligations.BusTracesOfDriverOperations : Prop :=
  ∀ (p : Params) (s : State), s.input = [] →
    let trace (o : HostOp) (tr : List (List Byte)) : Prop := ∃ t : State, runOp p o s = .next t ∧ busTrace t.input = tr
    let control (on : Bool) (b : BitVec 3) : Byte := flipByte (BitVec.ofNat 8 (0x80 + 8 * on.toNat + b.toNat))
    trace .init [[flipByte (0x88 ||| p.brtDefault.zeroExtend 8)], [0x02]] ∧
    (∀ x : Byte, trace (.setBrightness (some x)) [[control s.hDon (BitVec.ofNat 3 (x.toNat % 8))]]) ∧
    (∀ on, trace (.setDisplayOn on) [[control on s.hBrt]]) ∧
    (∀ (d : Byte) (address : Nat),
      trace (.writeByte d address) [[flipByte (BitVec.ofNat 8 (0xC0 + address % 16)), flipByte d]]) ∧
    (∀ (buf : Vector Byte 16) (length address : Nat),
      trace (.writeBlock buf (some length) (some address))
        [flipByte (BitVec.ofNat 8 (0xC0 + address % 16)) ::
          ((buf.toList.drop (address % 16)).take (min length (16 - address % 16))).map flipByte]) ∧
    trace .clearScreen [0x03 :: List.replicate 16 0x00] ∧
    trace .scanKeys [[0x42, 0xFF, 0xFF, 0xFF, 0xFF], [0x02]]

/-- R220: with `RW` known every driver operation is admitted to its end: some run of the machine takes it, and nothing
else of the input, and ends deselected with `RW` known again; without a data-setting command, a display-memory operation
that sends a data byte is refused `MODE_UNKNOWN`. -/
def Obligations.DriverOperationsAreAdmitted : Prop :=
  (∀ (s : State) (o : HostOp) (rest : List Input), isDriverOp o = true → s.refused = none → s.cs = .deasserted →
    s.rw ≠ .bot → s.input = .op o :: rest →
    ∃ k t, core.run k s = .next t ∧ t.input = rest ∧ t.refused = none ∧ t.cs = .deasserted ∧ t.seq = .idle ∧
      t.rw ≠ .bot ∧ t.faults = s.faults) ∧
  (∀ (s : State) (d : Byte) (address : Nat) (rest : List Input), s.refused = none → s.cs = .deasserted → s.rw = .bot →
    (s.input = .op (.writeByte d address) :: rest ∨ s.input = .op .clearScreen :: rest ∨
      ∃ (buf : Vector Byte 16) (length start : Option Nat), length ≠ some 0 ∧
        s.input = .op (.writeBlock buf length start) :: rest) →
    ∃ t, core.run 4 s = .refused (.event .modeUnknown t) ∧ t.dm = s.dm)

/-! ### The board adapter -/

/-- R244, R245 and R247: the characters that take no cell: a return, a point, and any other. A point to the right of a
cell sets that cell's decimal point and flushes it, or is refused where a byte it needs is unknown. -/
def Obligations.PutcControlCharacters : Prop :=
  ∀ (p : Params) (ch : Byte) (s : State),
    (ch = 0x0A ∨ ch = 0x0D → boardPutc p ch s = .next { s with col := 0 }) ∧
    (ch = 0x2E ∨ ch = 0x2C → s.col = 0 → boardPutc p ch s = .next s) ∧
    (ch = 0x2E ∨ ch = 0x2C → s.col ≠ 0 →
      (∀ sh a es, setPoint p (s.col - 1) s.shadow = some (sh, a) → flushEvents sh a = some es →
        boardPutc p ch s = .next { s with shadow := sh, input := es ++ s.input }) ∧
      (setPoint p (s.col - 1) s.shadow = none →
        boardPutc p ch s = .refused (.event .shadowUnknown { s with refused := some .shadowUnknown }))) ∧
    (ch ≠ 0x0A → ch ≠ 0x0D → ch.toNat < 0x20 ∨ 0x7F ≤ ch.toNat → boardPutc p ch s = .next s)

/-- R246, R260: a printable character writes its cell at the cursor's column, flushes, and then, after the flush, moves
the cursor one column on, wrapping to 0 past the last; where a byte it reads or flushes is unknown it is refused, with no
change and no traffic. -/
def Obligations.PutcPrintableCharacters : Prop :=
  ∀ (p : Params) (ch : Byte) (s : State), 0x20 ≤ ch.toNat → ch.toNat ≤ 0x7E → ch ≠ 0x2E → ch ≠ 0x2C →
    (∀ sh a es, writeChar p s.col ch s.shadow = some (sh, a) → flushEvents sh a = some es →
      boardPutc p ch s = .next { s with shadow := sh, input := es ++ .cursorNext :: s.input }) ∧
    (writeChar p s.col ch s.shadow = none ∨
        (∃ sh a, writeChar p s.col ch s.shadow = some (sh, a) ∧ flushEvents sh a = none) →
      boardPutc p ch s = .refused (.event .shadowUnknown { s with refused := some .shadowUnknown })) ∧
    (s.col < p.numCols →
      runInput p .cursorNext s = .next { s with col := if s.col + 1 = p.numCols then 0 else s.col + 1 })

/-- R249, R254: a character of Type A or C keeps the icon bits of its grid and takes the font's pattern in every other
bit; no other grid changes; an unknown byte of the grid refuses it. -/
def Obligations.GridCharacterKeepsIcons : Prop :=
  ∀ (p : Params) (c : Nat) (ch : Byte) (sh : Memory),
    let mask : BitVec 16 := if p.layout = .typeA then p.iconMaskA else p.iconMaskC
    let g := p.colGrid c
    p.layout ≠ .typeB →
    (∀ w, gridWord sh g = .known w → ∃ sh' w', writeChar p c ch sh = some (sh', [evenAddr g, oddAddr g]) ∧
      gridWord sh' g = .known w' ∧
      (∀ j < 16, w'.getLsbD j = if mask.getLsbD j then w.getLsbD j else (p.font ch).getLsbD j) ∧
      (∀ a, a / 2 ≠ g.val → memRead sh' a = memRead sh a)) ∧
    (gridWord sh g = .bot → ∀ (s : State), s.shadow = sh → c < p.numCols →
      boardWriteCell p c ch s = .refused (.event .shadowUnknown { s with refused := some .shadowUnknown }))

/-- R250, R255, R260: the decimal point of a column of Type A or C is one bit of its low byte; every other bit and byte
stays. Where that byte is unknown, a point written to the right of the column is refused. -/
def Obligations.GridDecimalPoint : Prop :=
  ∀ (p : Params) (c : Nat) (sh : Memory), p.layout ≠ .typeB →
    (∀ b : Byte, memRead sh (2 * (p.colGrid c).val) = .known b →
      ∃ sh' b', setPoint p c sh = some (sh', [evenAddr (p.colGrid c)]) ∧
        memRead sh' (2 * (p.colGrid c).val) = .known b' ∧ b'.getLsbD p.dpBit.val = true ∧
        (∀ j, j ≠ p.dpBit.val → b'.getLsbD j = b.getLsbD j) ∧
        (∀ a, a ≠ 2 * (p.colGrid c).val → memRead sh' a = memRead sh a)) ∧
    (memRead sh (2 * (p.colGrid c).val) = .bot → ∀ (ch : Byte) (s : State), ch = 0x2E ∨ ch = 0x2C → s.shadow = sh →
      s.col = c + 1 →
      boardPutc p ch s = .refused (.event .shadowUnknown { s with refused := some .shadowUnknown }))

/-- R251, R252: a character of Type B sets the column's bit of every segment byte to the font's value for that segment,
keeps every other bit, and touches no other byte, the decimal points' among them. -/
def Obligations.SegmentCharacterAssignsOneBitPerByte : Prop :=
  ∀ (p : Params) (c : Nat) (ch : Byte) (sh : Memory), p.layout = .typeB → p.TypeBDistinct →
    ((∀ i : Fin 7, memRead sh (p.segAddr i).val ≠ .bot) →
      ∃ sh', writeChar p c ch sh = some (sh', segments.map p.segAddr) ∧
        (∀ (i : Fin 7) (b : Byte), memRead sh (p.segAddr i).val = .known b →
          ∃ b', memRead sh' (p.segAddr i).val = .known b' ∧
            b'.getLsbD (p.colBit c).val = (p.font ch).getLsbD i.val ∧
            ∀ j, j ≠ (p.colBit c).val → b'.getLsbD j = b.getLsbD j) ∧
        (∀ a, (∀ i : Fin 7, a ≠ (p.segAddr i).val) → memRead sh' a = memRead sh a)) ∧
    ((∃ i : Fin 7, memRead sh (p.segAddr i).val = .bot) → ∀ (s : State), s.shadow = sh → c < p.numCols →
      boardWriteCell p c ch s = .refused (.event .shadowUnknown { s with refused := some .shadowUnknown }))

/-- R253, R260: the decimal point of a column of Type B is the column's bit of the decimal-point byte; every other bit and
byte stays. Where that byte is unknown, a point written to the right of the column is refused. -/
def Obligations.SegmentDecimalPoint : Prop :=
  ∀ (p : Params) (c : Nat) (sh : Memory), p.layout = .typeB →
    (∀ b : Byte, memRead sh p.dpAddr.val = .known b →
      ∃ sh' b', setPoint p c sh = some (sh', [p.dpAddr]) ∧ memRead sh' p.dpAddr.val = .known b' ∧
        b'.getLsbD (p.colBit c).val = true ∧ (∀ j, j ≠ (p.colBit c).val → b'.getLsbD j = b.getLsbD j) ∧
        (∀ a, a ≠ p.dpAddr.val → memRead sh' a = memRead sh a)) ∧
    (memRead sh p.dpAddr.val = .bot → ∀ (ch : Byte) (s : State), ch = 0x2E ∨ ch = 0x2C → s.shadow = sh →
      s.col = c + 1 →
      boardPutc p ch s = .refused (.event .shadowUnknown { s with refused := some .shadowUnknown }))

/-- R257, R258: an icon operation sets or clears the pattern's bits of its grid, preserves every other bit and grid, and
flushes both bytes of the grid in one transaction. -/
def Obligations.IconsPreserveUnrelatedBits : Prop :=
  ∀ (s : State) (id : Nat) (h : id / 2 ^ 16 < 8) (w : BitVec 16),
    gridWord s.shadow ⟨id / 2 ^ 16, h⟩ = .known w →
    let edited (r : Host.Outcome State Fault Refusal) (f : Bool → Bool → Bool) : Prop :=
      ∃ (t : State) (w' : BitVec 16), r = .next t ∧ gridWord t.shadow ⟨id / 2 ^ 16, h⟩ = .known w' ∧
        (∀ j < 16, w'.getLsbD j = f (w.getLsbD j) (id / 2 ^ j % 2 == 1)) ∧
        (∀ a, a / 2 ≠ id / 2 ^ 16 → memRead t.shadow a = memRead s.shadow a) ∧
        t = { s with
          shadow := t.shadow
          input := blockEvents (BitVec.ofNat 4 (2 * (id / 2 ^ 16))) [lowByte w', highByte w'] ++ s.input }
    edited (boardSetIcon id s) (fun old bit => old || bit) ∧ edited (boardClrIcon id s) (fun old bit => old && !bit)

/-- R243: a flush is one block write of the shadow's bytes over the smallest range that contains the changed addresses;
where a byte of the range is unknown the operation is refused; with no changed address nothing is sent. -/
def Obligations.FlushCoversTheSmallestRange : Prop :=
  (∀ (sh : Memory) (t : List (Fin 16)) (lo hi : Fin 16), lo ∈ t → hi ∈ t → (∀ a ∈ t, lo ≤ a ∧ a ≤ hi) →
    ((∀ a : Fin 16, lo ≤ a → a ≤ hi → memRead sh a.val ≠ .bot) →
      ∃ bs : List Byte, flushEvents sh t = some (blockEvents (BitVec.ofNat 4 lo.val) bs) ∧
        bs.length = hi.val - lo.val + 1 ∧ ∀ (i : Nat) (h : i < bs.length), memRead sh (lo.val + i) = .known bs[i]) ∧
    ((∃ a : Fin 16, lo ≤ a ∧ a ≤ hi ∧ memRead sh a.val = .bot) → ∀ (s : State) (after : List Input),
      commitEdit (some (sh, t)) after s = .refused (.event .shadowUnknown { s with refused := some .shadowUnknown }))) ∧
  ∀ sh : Memory, flushEvents sh [] = some []

/-- R242, R248, R261: `locate` and `writeCell` clamp the column, `locate` sends nothing, `writeCell` leaves the cursor, and
the glyph operation is refused. -/
def Obligations.LocateWriteCellAndGlyph : Prop :=
  ∀ (p : Params) (s : State) (c : Nat),
    (∃ t, boardLocate p c s = .next t ∧ t = { s with col := t.col } ∧ t.col < p.numCols ∧
      (c < p.numCols → t.col = c) ∧ (p.numCols ≤ c → t.col + 1 = p.numCols)) ∧
    (∀ ch c' sh a es, c' < p.numCols → (c < p.numCols → c' = c) → (p.numCols ≤ c → c' + 1 = p.numCols) →
      writeChar p c' ch s.shadow = some (sh, a) → flushEvents sh a = some es →
      boardWriteCell p c ch s = .next { s with shadow := sh, input := es ++ s.input }) ∧
    boardCustomGlyph s = .refused (.event .unmodelledOp { s with refused := some .unmodelledOp })

/-- R259: `clearAll` from its call to its end, in write mode: every shadow byte and every byte of display memory is 0x00
and the cursor stands at column 0; it needs no byte to be known before. -/
def Obligations.ClearAllOperation : Prop :=
  ∀ (s : State) (rest : List Input), s.refused = none → s.cs = .deasserted → s.rw = .known .write →
    s.input = .op .clearAll :: rest →
    ∃ t : State, core.run 21 s = .next t ∧ (∀ a : Fin 16, memRead t.shadow a.val = .known 0) ∧
      (∀ a : Fin 16, memRead t.dm a.val = .known 0) ∧ t.col = 0 ∧ t.input = rest ∧ t.cs = .deasserted ∧
      t.seq = .idle ∧ SameLatches s t

/-- The board parameters of the run are ones R241 allows: eight distinct Type B addresses, one to eight columns, and for
Types A and C a pattern in the low byte. -/
def Obligations.BoardParametersAreAllowed : Prop :=
  Config.params.TypeBDistinct ∧ 1 ≤ Config.params.numCols ∧ Config.params.numCols ≤ 8 ∧
  (Config.params.layout = .typeB ∨ ∀ ch, (Config.params.font ch).toNat < 256) ∧
  (∀ c < Config.params.numCols, (Config.params.colGrid c).val = c ∧ (Config.params.colBit c).val = c)

/-- The shadow is a faithful mirror (R69, R240, R243): with display memory and shadow alike and the controller in write
mode, a board operation that is admitted, run to the end of its flush, leaves them alike again, every byte. -/
def Obligations.BoardKeepsDisplayAndShadowAlike : Prop :=
  ∀ (s t : State) (o : HostOp), isDriverOp o = false → s.refused = none → s.cs = .deasserted → s.rw = .known .write →
    s.input = [.op o] → (∀ a : Fin 16, memRead s.dm a.val = memRead s.shadow a.val) → step s = .next t →
    ∃ u, core.run t.input.length t = .next u ∧ u.input = [] ∧ u.cs = .deasserted ∧ u.shadow = t.shadow ∧
      ∀ a : Fin 16, memRead u.dm a.val = memRead u.shadow a.val
end

