-- ==== Sys2Proof/Laws/Memory.lean ====
section
/-!
SUPPORT. The laws of the 16-byte file: a read after a write, the canonical form, and the grid words.
-/

namespace Sys2Proof.Machine

@[simp] theorem memRead_nil (a : Nat) : memRead [] a = .bot := rfl

/-- A read of the address written gives the value written. -/
@[simp] theorem memRead_memInsert_self (m : Memory) (a : Nat) (v : Byte) : memRead (memInsert m a v) a = .known v := by
  induction m with
  | nil => simp [memInsert, memRead]
  | cons c m ih =>
    obtain ⟨b, w⟩ := c
    simp only [memInsert]
    split
    · simp [memRead]
    · split
      · simp [memRead]
      · simp [memRead, *]

/-- Every other address reads as before. -/
theorem memRead_memInsert_other (m : Memory) (a b : Nat) (v : Byte) (h : b ≠ a) :
    memRead (memInsert m a v) b = memRead m b := by
  induction m with
  | nil => simp [memInsert, memRead, h]
  | cons c m ih =>
    obtain ⟨x, w⟩ := c
    simp only [memInsert]
    split
    · simp [memRead, h]
    · split
      · subst_vars; simp [memRead, h]
      · simp [memRead, ih]

@[simp] theorem memRead_memWrite_self (m : Memory) (a : Fin 16) (v : Byte) :
    memRead (memWrite m a v) a.val = .known v := memRead_memInsert_self m a.val v

theorem memRead_memWrite_other (m : Memory) (a : Fin 16) (b : Nat) (v : Byte) (h : b ≠ a.val) :
    memRead (memWrite m a v) b = memRead m b := memRead_memInsert_other m a.val b v h

/-- One lemma for both cases. -/
theorem memRead_memWrite (m : Memory) (a : Fin 16) (b : Nat) (v : Byte) :
    memRead (memWrite m a v) b = if b = a.val then .known v else memRead m b := by
  split
  · subst_vars; simp
  · exact memRead_memWrite_other m a b v ‹_›

/-- The canonical form as a chain: the head's address is below every later one. -/
theorem wf_cons (a : Nat) (v : Byte) (m : Memory) :
    Memory.wf ((a, v) :: m) = true ↔ a < 16 ∧ Memory.wf m = true ∧ ∀ c ∈ m, a < c.1 := by
  induction m generalizing a v with
  | nil => simp [Memory.wf]
  | cons c m ih =>
    obtain ⟨b, w⟩ := c
    simp only [Memory.wf, Bool.and_eq_true, decide_eq_true_eq, ih, List.mem_cons, forall_eq_or_imp]
    constructor
    · rintro ⟨hab, hb, hm, hlt⟩
      exact ⟨by omega, ⟨hb, hm, hlt⟩, hab, fun c hc => lt_trans hab (hlt c hc)⟩
    · rintro ⟨_, ⟨hb, hm, hlt⟩, hab, _⟩
      exact ⟨hab, hb, hm, hlt⟩

theorem mem_memInsert (m : Memory) (a : Nat) (v : Byte) (c : Host.Cell) (h : c ∈ memInsert m a v) :
    c = (a, v) ∨ c ∈ m := by
  induction m with
  | nil => simpa [memInsert] using h
  | cons d m ih =>
    obtain ⟨b, w⟩ := d
    simp only [memInsert] at h
    split at h
    · simpa using h
    · split at h
      · rcases List.mem_cons.1 h with h | h
        · exact .inl h
        · exact .inr (List.mem_cons_of_mem _ h)
      · rcases List.mem_cons.1 h with h | h
        · exact .inr (h ▸ List.mem_cons_self)
        · exact (ih h).imp id (List.mem_cons_of_mem _)

/-- A write keeps the canonical form. -/
theorem memInsert_wf (m : Memory) (a : Nat) (v : Byte) (ha : a < 16) (hm : m.wf = true) : (memInsert m a v).wf = true := by
  induction m with
  | nil => simp [memInsert, Memory.wf, ha]
  | cons c m ih =>
    obtain ⟨b, w⟩ := c
    obtain ⟨hb, hm', hlt⟩ := (wf_cons b w m).1 hm
    simp only [memInsert]
    split
    · rename_i hab
      exact (wf_cons ..).2 ⟨ha, hm, fun c hc => (List.mem_cons.1 hc).elim (fun h => h ▸ hab) fun h => lt_trans hab (hlt c h)⟩
    · split
      · subst_vars; exact (wf_cons ..).2 ⟨ha, hm', hlt⟩
      · refine (wf_cons ..).2 ⟨hb, ih hm', fun c hc => ?_⟩
        rcases mem_memInsert m a v c hc with rfl | hc
        · show b < a; omega
        · exact hlt c hc

theorem memWrite_wf (m : Memory) (a : Fin 16) (v : Byte) (hm : m.wf = true) : (memWrite m a v).wf = true :=
  memInsert_wf m a.val v a.isLt hm

theorem zeroMemory_wf : zeroMemory.wf = true := by decide

/-- Every byte of the zeroed file is 0x00. -/
theorem memRead_zeroMemory : ∀ a : Fin 16, memRead zeroMemory a.val = .known 0 := by decide

theorem putGridWord_wf (m : Memory) (g : Fin 8) (w : BitVec 16) (hm : m.wf = true) : (putGridWord m g w).wf = true :=
  memWrite_wf _ _ _ (memWrite_wf _ _ _ hm)

@[simp] theorem evenAddr_val (g : Fin 8) : (evenAddr g).val = 2 * g.val := rfl
@[simp] theorem oddAddr_val (g : Fin 8) : (oddAddr g).val = 2 * g.val + 1 := rfl
@[simp] theorem ptrOf_val (a : BitVec 4) : (ptrOf a).val = a.toNat := rfl
@[simp] theorem ptrAfter_val (a : Fin 16) : (ptrAfter a).val = a.val + 1 := rfl

/-- The grid word is known exactly where both bytes are (R160). -/
theorem gridWord_known (m : Memory) (g : Fin 8) (w : BitVec 16) :
    gridWord m g = .known w ↔
      ∃ lo hi, memRead m (evenAddr g).val = .known lo ∧ memRead m (oddAddr g).val = .known hi ∧ w = hi ++ lo := by
  unfold gridWord
  cases memRead m (evenAddr g).val <;> cases memRead m (oddAddr g).val <;> simp [eq_comm]

theorem high_append_low (w : BitVec 16) : highByte w ++ lowByte w = w := by
  unfold highByte lowByte
  ext i hi
  simp only [BitVec.getElem_append, BitVec.getElem_extractLsb']
  split
  · simp [BitVec.getLsbD_eq_getElem hi]
  · simp [show 8 + (i - 8) = i by omega, BitVec.getLsbD_eq_getElem hi]

/-- A grid word reads back as written. -/
@[simp] theorem gridWord_putGridWord (m : Memory) (g : Fin 8) (w : BitVec 16) :
    gridWord (putGridWord m g w) g = .known w := by
  refine (gridWord_known _ _ _).2 ⟨lowByte w, highByte w, ?_, ?_, (high_append_low w).symm⟩
  · rw [putGridWord, memRead_memWrite_other _ _ _ _ (by simp), memRead_memWrite_self]
  · rw [putGridWord, memRead_memWrite_self]

/-- Writing a grid word leaves every byte of the other grids. -/
theorem memRead_putGridWord_other (m : Memory) (g : Fin 8) (w : BitVec 16) (a : Nat) (h : a / 2 ≠ g.val) :
    memRead (putGridWord m g w) a = memRead m a := by
  rw [putGridWord, memRead_memWrite_other, memRead_memWrite_other] <;> simp <;> omega

/-- A range that reads is a range of known bytes. -/
theorem readRange_some (m : Memory) (a n : Nat) (bs : List Byte) (h : readRange m a n = some bs) :
    bs.length = n ∧ ∀ i (hi : i < bs.length), memRead m (a + i) = .known bs[i] := by
  induction n generalizing a bs with
  | zero => simp [readRange] at h; subst h; simp
  | succ n ih =>
    simp only [readRange] at h
    split at h
    · cases h
    · rename_i v hv
      obtain ⟨cs, hcs, rfl⟩ := Option.map_eq_some_iff.1 h
      obtain ⟨hl, hr⟩ := ih (a + 1) cs hcs
      refine ⟨by simp [hl], fun i hi => ?_⟩
      cases i with
      | zero => simpa using hv
      | succ i =>
        have := hr i (by simpa using hi)
        rw [show a + (i + 1) = a + 1 + i by omega]
        simpa using this

/-- A range of known bytes reads. -/
theorem readRange_isSome (m : Memory) (a n : Nat) (h : ∀ i < n, memRead m (a + i) ≠ .bot) :
    (readRange m a n).isSome = true := by
  induction n generalizing a with
  | zero => rfl
  | succ n ih =>
    simp only [readRange]
    split
    · rename_i hv; exact absurd hv (by simpa using h 0 (by omega))
    · have := ih (a + 1) fun i hi => by simpa [Nat.add_assoc, Nat.add_comm 1] using h (i + 1) (by omega)
      simpa using this

end Sys2Proof.Machine
end

