-- ==== Sys2Proof/Laws/State.lean ====
section
/-!
SUPPORT. What each update of the state leaves in each field: one lemma per field per update.
-/

namespace Sys2Proof.Machine

/-- A byte flipped on the way out and back is the byte: what R116 asks of the two ends of the bus. -/
@[simp] theorem flipByte_flipByte (b : Byte) : flipByte (flipByte b) = b := by revert b; decide

namespace State

@[simp] theorem markRefused_dm (s : State) (c : RefusalCode) : (s.markRefused c).dm = s.dm := rfl
@[simp] theorem markRefused_ptr (s : State) (c : RefusalCode) : (s.markRefused c).ptr = s.ptr := rfl
@[simp] theorem markRefused_rw (s : State) (c : RefusalCode) : (s.markRefused c).rw = s.rw := rfl
@[simp] theorem markRefused_ainc (s : State) (c : RefusalCode) : (s.markRefused c).ainc = s.ainc := rfl
@[simp] theorem markRefused_test (s : State) (c : RefusalCode) : (s.markRefused c).test = s.test := rfl
@[simp] theorem markRefused_don (s : State) (c : RefusalCode) : (s.markRefused c).don = s.don := rfl
@[simp] theorem markRefused_brt (s : State) (c : RefusalCode) : (s.markRefused c).brt = s.brt := rfl
@[simp] theorem markRefused_cs (s : State) (c : RefusalCode) : (s.markRefused c).cs = s.cs := rfl
@[simp] theorem markRefused_seq (s : State) (c : RefusalCode) : (s.markRefused c).seq = s.seq := rfl
@[simp] theorem markRefused_refused (s : State) (c : RefusalCode) : (s.markRefused c).refused = some c := rfl
@[simp] theorem markRefused_faults (s : State) (c : RefusalCode) : (s.markRefused c).faults = s.faults := rfl
@[simp] theorem markRefused_hDon (s : State) (c : RefusalCode) : (s.markRefused c).hDon = s.hDon := rfl
@[simp] theorem markRefused_hBrt (s : State) (c : RefusalCode) : (s.markRefused c).hBrt = s.hBrt := rfl
@[simp] theorem markRefused_shadow (s : State) (c : RefusalCode) : (s.markRefused c).shadow = s.shadow := rfl
@[simp] theorem markRefused_col (s : State) (c : RefusalCode) : (s.markRefused c).col = s.col := rfl
@[simp] theorem markRefused_rx (s : State) (c : RefusalCode) : (s.markRefused c).rx = s.rx := rfl
@[simp] theorem markRefused_busRx (s : State) (c : RefusalCode) : (s.markRefused c).busRx = s.busRx := rfl
@[simp] theorem markRefused_keys (s : State) (c : RefusalCode) : (s.markRefused c).keys = s.keys := rfl
@[simp] theorem markRefused_seen (s : State) (c : RefusalCode) : (s.markRefused c).seen = s.seen := rfl
@[simp] theorem markRefused_input (s : State) (c : RefusalCode) : (s.markRefused c).input = s.input := rfl
@[simp] theorem markRefused_draws (s : State) (c : RefusalCode) : (s.markRefused c).draws = s.draws := rfl

@[simp] theorem recordFault_dm (s : State) (f : FaultCode) : (s.recordFault f).dm = s.dm := rfl
@[simp] theorem recordFault_ptr (s : State) (f : FaultCode) : (s.recordFault f).ptr = s.ptr := rfl
@[simp] theorem recordFault_rw (s : State) (f : FaultCode) : (s.recordFault f).rw = s.rw := rfl
@[simp] theorem recordFault_ainc (s : State) (f : FaultCode) : (s.recordFault f).ainc = s.ainc := rfl
@[simp] theorem recordFault_test (s : State) (f : FaultCode) : (s.recordFault f).test = s.test := rfl
@[simp] theorem recordFault_don (s : State) (f : FaultCode) : (s.recordFault f).don = s.don := rfl
@[simp] theorem recordFault_brt (s : State) (f : FaultCode) : (s.recordFault f).brt = s.brt := rfl
@[simp] theorem recordFault_cs (s : State) (f : FaultCode) : (s.recordFault f).cs = s.cs := rfl
@[simp] theorem recordFault_seq (s : State) (f : FaultCode) : (s.recordFault f).seq = s.seq := rfl
@[simp] theorem recordFault_refused (s : State) (f : FaultCode) : (s.recordFault f).refused = s.refused := rfl
@[simp] theorem recordFault_faults (s : State) (f : FaultCode) : (s.recordFault f).faults = addFault s.faults f := rfl
@[simp] theorem recordFault_hDon (s : State) (f : FaultCode) : (s.recordFault f).hDon = s.hDon := rfl
@[simp] theorem recordFault_hBrt (s : State) (f : FaultCode) : (s.recordFault f).hBrt = s.hBrt := rfl
@[simp] theorem recordFault_shadow (s : State) (f : FaultCode) : (s.recordFault f).shadow = s.shadow := rfl
@[simp] theorem recordFault_col (s : State) (f : FaultCode) : (s.recordFault f).col = s.col := rfl
@[simp] theorem recordFault_rx (s : State) (f : FaultCode) : (s.recordFault f).rx = s.rx := rfl
@[simp] theorem recordFault_busRx (s : State) (f : FaultCode) : (s.recordFault f).busRx = s.busRx := rfl
@[simp] theorem recordFault_keys (s : State) (f : FaultCode) : (s.recordFault f).keys = s.keys := rfl
@[simp] theorem recordFault_seen (s : State) (f : FaultCode) : (s.recordFault f).seen = s.seen := rfl
@[simp] theorem recordFault_input (s : State) (f : FaultCode) : (s.recordFault f).input = s.input := rfl
@[simp] theorem recordFault_draws (s : State) (f : FaultCode) : (s.recordFault f).draws = s.draws := rfl

@[simp] theorem setSeen_dm (s : State) (v : Seen) : (s.setSeen v).dm = s.dm := rfl
@[simp] theorem setSeen_ptr (s : State) (v : Seen) : (s.setSeen v).ptr = s.ptr := rfl
@[simp] theorem setSeen_rw (s : State) (v : Seen) : (s.setSeen v).rw = s.rw := rfl
@[simp] theorem setSeen_ainc (s : State) (v : Seen) : (s.setSeen v).ainc = s.ainc := rfl
@[simp] theorem setSeen_test (s : State) (v : Seen) : (s.setSeen v).test = s.test := rfl
@[simp] theorem setSeen_don (s : State) (v : Seen) : (s.setSeen v).don = s.don := rfl
@[simp] theorem setSeen_brt (s : State) (v : Seen) : (s.setSeen v).brt = s.brt := rfl
@[simp] theorem setSeen_cs (s : State) (v : Seen) : (s.setSeen v).cs = s.cs := rfl
@[simp] theorem setSeen_seq (s : State) (v : Seen) : (s.setSeen v).seq = s.seq := rfl
@[simp] theorem setSeen_refused (s : State) (v : Seen) : (s.setSeen v).refused = s.refused := rfl
@[simp] theorem setSeen_faults (s : State) (v : Seen) : (s.setSeen v).faults = s.faults := rfl
@[simp] theorem setSeen_hDon (s : State) (v : Seen) : (s.setSeen v).hDon = s.hDon := rfl
@[simp] theorem setSeen_hBrt (s : State) (v : Seen) : (s.setSeen v).hBrt = s.hBrt := rfl
@[simp] theorem setSeen_shadow (s : State) (v : Seen) : (s.setSeen v).shadow = s.shadow := rfl
@[simp] theorem setSeen_col (s : State) (v : Seen) : (s.setSeen v).col = s.col := rfl
@[simp] theorem setSeen_rx (s : State) (v : Seen) : (s.setSeen v).rx = s.rx := rfl
@[simp] theorem setSeen_busRx (s : State) (v : Seen) : (s.setSeen v).busRx = s.busRx := rfl
@[simp] theorem setSeen_keys (s : State) (v : Seen) : (s.setSeen v).keys = s.keys := rfl
@[simp] theorem setSeen_seen (s : State) (v : Seen) : (s.setSeen v).seen = v := rfl
@[simp] theorem setSeen_input (s : State) (v : Seen) : (s.setSeen v).input = s.input := rfl
@[simp] theorem setSeen_draws (s : State) (v : Seen) : (s.setSeen v).draws = s.draws := rfl

@[simp] theorem setSeq_dm (s : State) (q : Seq) : (s.setSeq q).dm = s.dm := rfl
@[simp] theorem setSeq_ptr (s : State) (q : Seq) : (s.setSeq q).ptr = s.ptr := rfl
@[simp] theorem setSeq_rw (s : State) (q : Seq) : (s.setSeq q).rw = s.rw := rfl
@[simp] theorem setSeq_ainc (s : State) (q : Seq) : (s.setSeq q).ainc = s.ainc := rfl
@[simp] theorem setSeq_test (s : State) (q : Seq) : (s.setSeq q).test = s.test := rfl
@[simp] theorem setSeq_don (s : State) (q : Seq) : (s.setSeq q).don = s.don := rfl
@[simp] theorem setSeq_brt (s : State) (q : Seq) : (s.setSeq q).brt = s.brt := rfl
@[simp] theorem setSeq_cs (s : State) (q : Seq) : (s.setSeq q).cs = s.cs := rfl
@[simp] theorem setSeq_seq (s : State) (q : Seq) : (s.setSeq q).seq = q := rfl
@[simp] theorem setSeq_refused (s : State) (q : Seq) : (s.setSeq q).refused = s.refused := rfl
@[simp] theorem setSeq_faults (s : State) (q : Seq) : (s.setSeq q).faults = s.faults := rfl
@[simp] theorem setSeq_hDon (s : State) (q : Seq) : (s.setSeq q).hDon = s.hDon := rfl
@[simp] theorem setSeq_hBrt (s : State) (q : Seq) : (s.setSeq q).hBrt = s.hBrt := rfl
@[simp] theorem setSeq_shadow (s : State) (q : Seq) : (s.setSeq q).shadow = s.shadow := rfl
@[simp] theorem setSeq_col (s : State) (q : Seq) : (s.setSeq q).col = s.col := rfl
@[simp] theorem setSeq_rx (s : State) (q : Seq) : (s.setSeq q).rx = s.rx := rfl
@[simp] theorem setSeq_busRx (s : State) (q : Seq) : (s.setSeq q).busRx = s.busRx := rfl
@[simp] theorem setSeq_keys (s : State) (q : Seq) : (s.setSeq q).keys = s.keys := rfl
@[simp] theorem setSeq_seen (s : State) (q : Seq) : (s.setSeq q).seen = s.seen := rfl
@[simp] theorem setSeq_input (s : State) (q : Seq) : (s.setSeq q).input = s.input := rfl
@[simp] theorem setSeq_draws (s : State) (q : Seq) : (s.setSeq q).draws = s.draws := rfl

@[simp] theorem openTransaction_dm (s : State) : (s.openTransaction).dm = s.dm := rfl
@[simp] theorem openTransaction_ptr (s : State) : (s.openTransaction).ptr = s.ptr := rfl
@[simp] theorem openTransaction_rw (s : State) : (s.openTransaction).rw = s.rw := rfl
@[simp] theorem openTransaction_ainc (s : State) : (s.openTransaction).ainc = s.ainc := rfl
@[simp] theorem openTransaction_test (s : State) : (s.openTransaction).test = s.test := rfl
@[simp] theorem openTransaction_don (s : State) : (s.openTransaction).don = s.don := rfl
@[simp] theorem openTransaction_brt (s : State) : (s.openTransaction).brt = s.brt := rfl
@[simp] theorem openTransaction_cs (s : State) : (s.openTransaction).cs = .asserted := rfl
@[simp] theorem openTransaction_seq (s : State) : (s.openTransaction).seq = .expectCmd := rfl
@[simp] theorem openTransaction_refused (s : State) : (s.openTransaction).refused = s.refused := rfl
@[simp] theorem openTransaction_faults (s : State) : (s.openTransaction).faults = s.faults := rfl
@[simp] theorem openTransaction_hDon (s : State) : (s.openTransaction).hDon = s.hDon := rfl
@[simp] theorem openTransaction_hBrt (s : State) : (s.openTransaction).hBrt = s.hBrt := rfl
@[simp] theorem openTransaction_shadow (s : State) : (s.openTransaction).shadow = s.shadow := rfl
@[simp] theorem openTransaction_col (s : State) : (s.openTransaction).col = s.col := rfl
@[simp] theorem openTransaction_rx (s : State) : (s.openTransaction).rx = [] := rfl
@[simp] theorem openTransaction_busRx (s : State) : (s.openTransaction).busRx = [] := rfl
@[simp] theorem openTransaction_keys (s : State) : (s.openTransaction).keys = s.keys := rfl
@[simp] theorem openTransaction_seen (s : State) : (s.openTransaction).seen = s.seen := rfl
@[simp] theorem openTransaction_input (s : State) : (s.openTransaction).input = s.input := rfl
@[simp] theorem openTransaction_draws (s : State) : (s.openTransaction).draws = s.draws := rfl

@[simp] theorem closeTransaction_dm (s : State) : (s.closeTransaction).dm = s.dm := rfl
@[simp] theorem closeTransaction_ptr (s : State) : (s.closeTransaction).ptr = s.ptr := rfl
@[simp] theorem closeTransaction_rw (s : State) : (s.closeTransaction).rw = s.rw := rfl
@[simp] theorem closeTransaction_ainc (s : State) : (s.closeTransaction).ainc = s.ainc := rfl
@[simp] theorem closeTransaction_test (s : State) : (s.closeTransaction).test = s.test := rfl
@[simp] theorem closeTransaction_don (s : State) : (s.closeTransaction).don = s.don := rfl
@[simp] theorem closeTransaction_brt (s : State) : (s.closeTransaction).brt = s.brt := rfl
@[simp] theorem closeTransaction_cs (s : State) : (s.closeTransaction).cs = .deasserted := rfl
@[simp] theorem closeTransaction_seq (s : State) : (s.closeTransaction).seq = .idle := rfl
@[simp] theorem closeTransaction_refused (s : State) : (s.closeTransaction).refused = s.refused := rfl
@[simp] theorem closeTransaction_faults (s : State) : (s.closeTransaction).faults = s.faults := rfl
@[simp] theorem closeTransaction_hDon (s : State) : (s.closeTransaction).hDon = s.hDon := rfl
@[simp] theorem closeTransaction_hBrt (s : State) : (s.closeTransaction).hBrt = s.hBrt := rfl
@[simp] theorem closeTransaction_shadow (s : State) : (s.closeTransaction).shadow = s.shadow := rfl
@[simp] theorem closeTransaction_col (s : State) : (s.closeTransaction).col = s.col := rfl
@[simp] theorem closeTransaction_rx (s : State) : (s.closeTransaction).rx = s.rx := rfl
@[simp] theorem closeTransaction_busRx (s : State) : (s.closeTransaction).busRx = s.busRx := rfl
@[simp] theorem closeTransaction_keys (s : State) : (s.closeTransaction).keys = s.keys := rfl
@[simp] theorem closeTransaction_seen (s : State) : (s.closeTransaction).seen = s.seen := rfl
@[simp] theorem closeTransaction_input (s : State) : (s.closeTransaction).input = s.input := rfl
@[simp] theorem closeTransaction_draws (s : State) : (s.closeTransaction).draws = s.draws := rfl

@[simp] theorem receive_dm (s : State) (r : Byte) : (s.receive r).dm = s.dm := rfl
@[simp] theorem receive_ptr (s : State) (r : Byte) : (s.receive r).ptr = s.ptr := rfl
@[simp] theorem receive_rw (s : State) (r : Byte) : (s.receive r).rw = s.rw := rfl
@[simp] theorem receive_ainc (s : State) (r : Byte) : (s.receive r).ainc = s.ainc := rfl
@[simp] theorem receive_test (s : State) (r : Byte) : (s.receive r).test = s.test := rfl
@[simp] theorem receive_don (s : State) (r : Byte) : (s.receive r).don = s.don := rfl
@[simp] theorem receive_brt (s : State) (r : Byte) : (s.receive r).brt = s.brt := rfl
@[simp] theorem receive_cs (s : State) (r : Byte) : (s.receive r).cs = s.cs := rfl
@[simp] theorem receive_seq (s : State) (r : Byte) : (s.receive r).seq = s.seq := rfl
@[simp] theorem receive_refused (s : State) (r : Byte) : (s.receive r).refused = s.refused := rfl
@[simp] theorem receive_faults (s : State) (r : Byte) : (s.receive r).faults = s.faults := rfl
@[simp] theorem receive_hDon (s : State) (r : Byte) : (s.receive r).hDon = s.hDon := rfl
@[simp] theorem receive_hBrt (s : State) (r : Byte) : (s.receive r).hBrt = s.hBrt := rfl
@[simp] theorem receive_shadow (s : State) (r : Byte) : (s.receive r).shadow = s.shadow := rfl
@[simp] theorem receive_col (s : State) (r : Byte) : (s.receive r).col = s.col := rfl
@[simp] theorem receive_rx (s : State) (r : Byte) : (s.receive r).rx = s.rx ++ [flipByte r] := rfl
@[simp] theorem receive_busRx (s : State) (r : Byte) : (s.receive r).busRx = s.busRx ++ [r] := rfl
@[simp] theorem receive_keys (s : State) (r : Byte) : (s.receive r).keys = s.keys := rfl
@[simp] theorem receive_seen (s : State) (r : Byte) : (s.receive r).seen = s.seen := rfl
@[simp] theorem receive_input (s : State) (r : Byte) : (s.receive r).input = s.input := rfl
@[simp] theorem receive_draws (s : State) (r : Byte) : (s.receive r).draws = s.draws := rfl

@[simp] theorem advanceDraw_dm (s : State) : s.advanceDraw.dm = s.dm := rfl
@[simp] theorem advanceDraw_ptr (s : State) : s.advanceDraw.ptr = s.ptr := rfl
@[simp] theorem advanceDraw_rw (s : State) : s.advanceDraw.rw = s.rw := rfl
@[simp] theorem advanceDraw_ainc (s : State) : s.advanceDraw.ainc = s.ainc := rfl
@[simp] theorem advanceDraw_test (s : State) : s.advanceDraw.test = s.test := rfl
@[simp] theorem advanceDraw_don (s : State) : s.advanceDraw.don = s.don := rfl
@[simp] theorem advanceDraw_brt (s : State) : s.advanceDraw.brt = s.brt := rfl
@[simp] theorem advanceDraw_cs (s : State) : s.advanceDraw.cs = s.cs := rfl
@[simp] theorem advanceDraw_seq (s : State) : s.advanceDraw.seq = s.seq := rfl
@[simp] theorem advanceDraw_refused (s : State) : s.advanceDraw.refused = s.refused := rfl
@[simp] theorem advanceDraw_faults (s : State) : s.advanceDraw.faults = s.faults := rfl
@[simp] theorem advanceDraw_hDon (s : State) : s.advanceDraw.hDon = s.hDon := rfl
@[simp] theorem advanceDraw_hBrt (s : State) : s.advanceDraw.hBrt = s.hBrt := rfl
@[simp] theorem advanceDraw_shadow (s : State) : s.advanceDraw.shadow = s.shadow := rfl
@[simp] theorem advanceDraw_col (s : State) : s.advanceDraw.col = s.col := rfl
@[simp] theorem advanceDraw_rx (s : State) : s.advanceDraw.rx = s.rx := rfl
@[simp] theorem advanceDraw_busRx (s : State) : s.advanceDraw.busRx = s.busRx := rfl
@[simp] theorem advanceDraw_keys (s : State) : s.advanceDraw.keys = s.keys := rfl
@[simp] theorem advanceDraw_seen (s : State) : s.advanceDraw.seen = s.seen := rfl
@[simp] theorem advanceDraw_input (s : State) : s.advanceDraw.input = s.input := rfl
@[simp] theorem advanceDraw_draws (s : State) : s.advanceDraw.draws = s.draws + 1 := rfl

@[simp] theorem reply_dm (s : State) (b : Byte) : (s.reply b).dm = s.dm := rfl
@[simp] theorem reply_ptr (s : State) (b : Byte) : (s.reply b).ptr = s.ptr := rfl
@[simp] theorem reply_rw (s : State) (b : Byte) : (s.reply b).rw = s.rw := rfl
@[simp] theorem reply_ainc (s : State) (b : Byte) : (s.reply b).ainc = s.ainc := rfl
@[simp] theorem reply_test (s : State) (b : Byte) : (s.reply b).test = s.test := rfl
@[simp] theorem reply_don (s : State) (b : Byte) : (s.reply b).don = s.don := rfl
@[simp] theorem reply_brt (s : State) (b : Byte) : (s.reply b).brt = s.brt := rfl
@[simp] theorem reply_cs (s : State) (b : Byte) : (s.reply b).cs = s.cs := rfl
@[simp] theorem reply_seq (s : State) (b : Byte) : (s.reply b).seq = s.seq := rfl
@[simp] theorem reply_refused (s : State) (b : Byte) : (s.reply b).refused = s.refused := rfl
@[simp] theorem reply_faults (s : State) (b : Byte) : (s.reply b).faults = s.faults := rfl
@[simp] theorem reply_hDon (s : State) (b : Byte) : (s.reply b).hDon = s.hDon := rfl
@[simp] theorem reply_hBrt (s : State) (b : Byte) : (s.reply b).hBrt = s.hBrt := rfl
@[simp] theorem reply_shadow (s : State) (b : Byte) : (s.reply b).shadow = s.shadow := rfl
@[simp] theorem reply_col (s : State) (b : Byte) : (s.reply b).col = s.col := rfl
@[simp] theorem reply_rx (s : State) (b : Byte) : (s.reply b).rx = s.rx ++ [b] := by
  simp only [reply, advanceDraw_rx, receive_rx, flipByte_flipByte]
@[simp] theorem reply_busRx (s : State) (b : Byte) : (s.reply b).busRx = s.busRx ++ [flipByte b] := rfl
@[simp] theorem reply_keys (s : State) (b : Byte) : (s.reply b).keys = s.keys := rfl
@[simp] theorem reply_seen (s : State) (b : Byte) : (s.reply b).seen = s.seen := rfl
@[simp] theorem reply_input (s : State) (b : Byte) : (s.reply b).input = s.input := rfl
@[simp] theorem reply_draws (s : State) (b : Byte) : (s.reply b).draws = s.draws + 1 := rfl

@[simp] theorem setPtr_dm (s : State) (p : Fin 17) : (s.setPtr p).dm = s.dm := rfl
@[simp] theorem setPtr_ptr (s : State) (p : Fin 17) : (s.setPtr p).ptr = .known p := rfl
@[simp] theorem setPtr_rw (s : State) (p : Fin 17) : (s.setPtr p).rw = s.rw := rfl
@[simp] theorem setPtr_ainc (s : State) (p : Fin 17) : (s.setPtr p).ainc = s.ainc := rfl
@[simp] theorem setPtr_test (s : State) (p : Fin 17) : (s.setPtr p).test = s.test := rfl
@[simp] theorem setPtr_don (s : State) (p : Fin 17) : (s.setPtr p).don = s.don := rfl
@[simp] theorem setPtr_brt (s : State) (p : Fin 17) : (s.setPtr p).brt = s.brt := rfl
@[simp] theorem setPtr_cs (s : State) (p : Fin 17) : (s.setPtr p).cs = s.cs := rfl
@[simp] theorem setPtr_seq (s : State) (p : Fin 17) : (s.setPtr p).seq = s.seq := rfl
@[simp] theorem setPtr_refused (s : State) (p : Fin 17) : (s.setPtr p).refused = s.refused := rfl
@[simp] theorem setPtr_faults (s : State) (p : Fin 17) : (s.setPtr p).faults = s.faults := rfl
@[simp] theorem setPtr_hDon (s : State) (p : Fin 17) : (s.setPtr p).hDon = s.hDon := rfl
@[simp] theorem setPtr_hBrt (s : State) (p : Fin 17) : (s.setPtr p).hBrt = s.hBrt := rfl
@[simp] theorem setPtr_shadow (s : State) (p : Fin 17) : (s.setPtr p).shadow = s.shadow := rfl
@[simp] theorem setPtr_col (s : State) (p : Fin 17) : (s.setPtr p).col = s.col := rfl
@[simp] theorem setPtr_rx (s : State) (p : Fin 17) : (s.setPtr p).rx = s.rx := rfl
@[simp] theorem setPtr_busRx (s : State) (p : Fin 17) : (s.setPtr p).busRx = s.busRx := rfl
@[simp] theorem setPtr_keys (s : State) (p : Fin 17) : (s.setPtr p).keys = s.keys := rfl
@[simp] theorem setPtr_seen (s : State) (p : Fin 17) : (s.setPtr p).seen = s.seen := rfl
@[simp] theorem setPtr_input (s : State) (p : Fin 17) : (s.setPtr p).input = s.input := rfl
@[simp] theorem setPtr_draws (s : State) (p : Fin 17) : (s.setPtr p).draws = s.draws := rfl

@[simp] theorem writeDm_dm (s : State) (a : Fin 16) (d : Byte) : (s.writeDm a d).dm = memWrite s.dm a d := rfl
@[simp] theorem writeDm_ptr (s : State) (a : Fin 16) (d : Byte) : (s.writeDm a d).ptr = s.ptr := rfl
@[simp] theorem writeDm_rw (s : State) (a : Fin 16) (d : Byte) : (s.writeDm a d).rw = s.rw := rfl
@[simp] theorem writeDm_ainc (s : State) (a : Fin 16) (d : Byte) : (s.writeDm a d).ainc = s.ainc := rfl
@[simp] theorem writeDm_test (s : State) (a : Fin 16) (d : Byte) : (s.writeDm a d).test = s.test := rfl
@[simp] theorem writeDm_don (s : State) (a : Fin 16) (d : Byte) : (s.writeDm a d).don = s.don := rfl
@[simp] theorem writeDm_brt (s : State) (a : Fin 16) (d : Byte) : (s.writeDm a d).brt = s.brt := rfl
@[simp] theorem writeDm_cs (s : State) (a : Fin 16) (d : Byte) : (s.writeDm a d).cs = s.cs := rfl
@[simp] theorem writeDm_seq (s : State) (a : Fin 16) (d : Byte) : (s.writeDm a d).seq = s.seq := rfl
@[simp] theorem writeDm_refused (s : State) (a : Fin 16) (d : Byte) : (s.writeDm a d).refused = s.refused := rfl
@[simp] theorem writeDm_faults (s : State) (a : Fin 16) (d : Byte) : (s.writeDm a d).faults = s.faults := rfl
@[simp] theorem writeDm_hDon (s : State) (a : Fin 16) (d : Byte) : (s.writeDm a d).hDon = s.hDon := rfl
@[simp] theorem writeDm_hBrt (s : State) (a : Fin 16) (d : Byte) : (s.writeDm a d).hBrt = s.hBrt := rfl
@[simp] theorem writeDm_shadow (s : State) (a : Fin 16) (d : Byte) : (s.writeDm a d).shadow = s.shadow := rfl
@[simp] theorem writeDm_col (s : State) (a : Fin 16) (d : Byte) : (s.writeDm a d).col = s.col := rfl
@[simp] theorem writeDm_rx (s : State) (a : Fin 16) (d : Byte) : (s.writeDm a d).rx = s.rx := rfl
@[simp] theorem writeDm_busRx (s : State) (a : Fin 16) (d : Byte) : (s.writeDm a d).busRx = s.busRx := rfl
@[simp] theorem writeDm_keys (s : State) (a : Fin 16) (d : Byte) : (s.writeDm a d).keys = s.keys := rfl
@[simp] theorem writeDm_seen (s : State) (a : Fin 16) (d : Byte) : (s.writeDm a d).seen = s.seen := rfl
@[simp] theorem writeDm_input (s : State) (a : Fin 16) (d : Byte) : (s.writeDm a d).input = s.input := rfl
@[simp] theorem writeDm_draws (s : State) (a : Fin 16) (d : Byte) : (s.writeDm a d).draws = s.draws := rfl

@[simp] theorem issue_dm (s : State) (es : List Input) : (s.issue es).dm = s.dm := rfl
@[simp] theorem issue_ptr (s : State) (es : List Input) : (s.issue es).ptr = s.ptr := rfl
@[simp] theorem issue_rw (s : State) (es : List Input) : (s.issue es).rw = s.rw := rfl
@[simp] theorem issue_ainc (s : State) (es : List Input) : (s.issue es).ainc = s.ainc := rfl
@[simp] theorem issue_test (s : State) (es : List Input) : (s.issue es).test = s.test := rfl
@[simp] theorem issue_don (s : State) (es : List Input) : (s.issue es).don = s.don := rfl
@[simp] theorem issue_brt (s : State) (es : List Input) : (s.issue es).brt = s.brt := rfl
@[simp] theorem issue_cs (s : State) (es : List Input) : (s.issue es).cs = s.cs := rfl
@[simp] theorem issue_seq (s : State) (es : List Input) : (s.issue es).seq = s.seq := rfl
@[simp] theorem issue_refused (s : State) (es : List Input) : (s.issue es).refused = s.refused := rfl
@[simp] theorem issue_faults (s : State) (es : List Input) : (s.issue es).faults = s.faults := rfl
@[simp] theorem issue_hDon (s : State) (es : List Input) : (s.issue es).hDon = s.hDon := rfl
@[simp] theorem issue_hBrt (s : State) (es : List Input) : (s.issue es).hBrt = s.hBrt := rfl
@[simp] theorem issue_shadow (s : State) (es : List Input) : (s.issue es).shadow = s.shadow := rfl
@[simp] theorem issue_col (s : State) (es : List Input) : (s.issue es).col = s.col := rfl
@[simp] theorem issue_rx (s : State) (es : List Input) : (s.issue es).rx = s.rx := rfl
@[simp] theorem issue_busRx (s : State) (es : List Input) : (s.issue es).busRx = s.busRx := rfl
@[simp] theorem issue_keys (s : State) (es : List Input) : (s.issue es).keys = s.keys := rfl
@[simp] theorem issue_seen (s : State) (es : List Input) : (s.issue es).seen = s.seen := rfl
@[simp] theorem issue_input (s : State) (es : List Input) : (s.issue es).input = es ++ s.input := rfl
@[simp] theorem issue_draws (s : State) (es : List Input) : (s.issue es).draws = s.draws := rfl

@[simp] theorem setInput_dm (s : State) (es : List Input) : (s.setInput es).dm = s.dm := rfl
@[simp] theorem setInput_ptr (s : State) (es : List Input) : (s.setInput es).ptr = s.ptr := rfl
@[simp] theorem setInput_rw (s : State) (es : List Input) : (s.setInput es).rw = s.rw := rfl
@[simp] theorem setInput_ainc (s : State) (es : List Input) : (s.setInput es).ainc = s.ainc := rfl
@[simp] theorem setInput_test (s : State) (es : List Input) : (s.setInput es).test = s.test := rfl
@[simp] theorem setInput_don (s : State) (es : List Input) : (s.setInput es).don = s.don := rfl
@[simp] theorem setInput_brt (s : State) (es : List Input) : (s.setInput es).brt = s.brt := rfl
@[simp] theorem setInput_cs (s : State) (es : List Input) : (s.setInput es).cs = s.cs := rfl
@[simp] theorem setInput_seq (s : State) (es : List Input) : (s.setInput es).seq = s.seq := rfl
@[simp] theorem setInput_refused (s : State) (es : List Input) : (s.setInput es).refused = s.refused := rfl
@[simp] theorem setInput_faults (s : State) (es : List Input) : (s.setInput es).faults = s.faults := rfl
@[simp] theorem setInput_hDon (s : State) (es : List Input) : (s.setInput es).hDon = s.hDon := rfl
@[simp] theorem setInput_hBrt (s : State) (es : List Input) : (s.setInput es).hBrt = s.hBrt := rfl
@[simp] theorem setInput_shadow (s : State) (es : List Input) : (s.setInput es).shadow = s.shadow := rfl
@[simp] theorem setInput_col (s : State) (es : List Input) : (s.setInput es).col = s.col := rfl
@[simp] theorem setInput_rx (s : State) (es : List Input) : (s.setInput es).rx = s.rx := rfl
@[simp] theorem setInput_busRx (s : State) (es : List Input) : (s.setInput es).busRx = s.busRx := rfl
@[simp] theorem setInput_keys (s : State) (es : List Input) : (s.setInput es).keys = s.keys := rfl
@[simp] theorem setInput_seen (s : State) (es : List Input) : (s.setInput es).seen = s.seen := rfl
@[simp] theorem setInput_input (s : State) (es : List Input) : (s.setInput es).input = es := rfl
@[simp] theorem setInput_draws (s : State) (es : List Input) : (s.setInput es).draws = s.draws := rfl

@[simp] theorem setModes_dm (s : State) (m : RwMode) : (s.setModes m).dm = s.dm := rfl
@[simp] theorem setModes_ptr (s : State) (m : RwMode) : (s.setModes m).ptr = s.ptr := rfl
@[simp] theorem setModes_rw (s : State) (m : RwMode) : (s.setModes m).rw = .known m := rfl
@[simp] theorem setModes_ainc (s : State) (m : RwMode) : (s.setModes m).ainc = .known .inc := rfl
@[simp] theorem setModes_test (s : State) (m : RwMode) : (s.setModes m).test = .known .normal := rfl
@[simp] theorem setModes_don (s : State) (m : RwMode) : (s.setModes m).don = s.don := rfl
@[simp] theorem setModes_brt (s : State) (m : RwMode) : (s.setModes m).brt = s.brt := rfl
@[simp] theorem setModes_cs (s : State) (m : RwMode) : (s.setModes m).cs = s.cs := rfl
@[simp] theorem setModes_seq (s : State) (m : RwMode) : (s.setModes m).seq = s.seq := rfl
@[simp] theorem setModes_refused (s : State) (m : RwMode) : (s.setModes m).refused = s.refused := rfl
@[simp] theorem setModes_faults (s : State) (m : RwMode) : (s.setModes m).faults = s.faults := rfl
@[simp] theorem setModes_hDon (s : State) (m : RwMode) : (s.setModes m).hDon = s.hDon := rfl
@[simp] theorem setModes_hBrt (s : State) (m : RwMode) : (s.setModes m).hBrt = s.hBrt := rfl
@[simp] theorem setModes_shadow (s : State) (m : RwMode) : (s.setModes m).shadow = s.shadow := rfl
@[simp] theorem setModes_col (s : State) (m : RwMode) : (s.setModes m).col = s.col := rfl
@[simp] theorem setModes_rx (s : State) (m : RwMode) : (s.setModes m).rx = s.rx := rfl
@[simp] theorem setModes_busRx (s : State) (m : RwMode) : (s.setModes m).busRx = s.busRx := rfl
@[simp] theorem setModes_keys (s : State) (m : RwMode) : (s.setModes m).keys = s.keys := rfl
@[simp] theorem setModes_seen (s : State) (m : RwMode) : (s.setModes m).seen = s.seen := rfl
@[simp] theorem setModes_input (s : State) (m : RwMode) : (s.setModes m).input = s.input := rfl
@[simp] theorem setModes_draws (s : State) (m : RwMode) : (s.setModes m).draws = s.draws := rfl

@[simp] theorem setDisplay_dm (s : State) (on : Bool) (b : BitVec 3) : (s.setDisplay on b).dm = s.dm := rfl
@[simp] theorem setDisplay_ptr (s : State) (on : Bool) (b : BitVec 3) : (s.setDisplay on b).ptr = s.ptr := rfl
@[simp] theorem setDisplay_rw (s : State) (on : Bool) (b : BitVec 3) : (s.setDisplay on b).rw = s.rw := rfl
@[simp] theorem setDisplay_ainc (s : State) (on : Bool) (b : BitVec 3) : (s.setDisplay on b).ainc = s.ainc := rfl
@[simp] theorem setDisplay_test (s : State) (on : Bool) (b : BitVec 3) : (s.setDisplay on b).test = s.test := rfl
@[simp] theorem setDisplay_don (s : State) (on : Bool) (b : BitVec 3) : (s.setDisplay on b).don = .known on := rfl
@[simp] theorem setDisplay_brt (s : State) (on : Bool) (b : BitVec 3) : (s.setDisplay on b).brt = .known b := rfl
@[simp] theorem setDisplay_cs (s : State) (on : Bool) (b : BitVec 3) : (s.setDisplay on b).cs = s.cs := rfl
@[simp] theorem setDisplay_seq (s : State) (on : Bool) (b : BitVec 3) : (s.setDisplay on b).seq = s.seq := rfl
@[simp] theorem setDisplay_refused (s : State) (on : Bool) (b : BitVec 3) : (s.setDisplay on b).refused = s.refused := rfl
@[simp] theorem setDisplay_faults (s : State) (on : Bool) (b : BitVec 3) : (s.setDisplay on b).faults = s.faults := rfl
@[simp] theorem setDisplay_hDon (s : State) (on : Bool) (b : BitVec 3) : (s.setDisplay on b).hDon = s.hDon := rfl
@[simp] theorem setDisplay_hBrt (s : State) (on : Bool) (b : BitVec 3) : (s.setDisplay on b).hBrt = s.hBrt := rfl
@[simp] theorem setDisplay_shadow (s : State) (on : Bool) (b : BitVec 3) : (s.setDisplay on b).shadow = s.shadow := rfl
@[simp] theorem setDisplay_col (s : State) (on : Bool) (b : BitVec 3) : (s.setDisplay on b).col = s.col := rfl
@[simp] theorem setDisplay_rx (s : State) (on : Bool) (b : BitVec 3) : (s.setDisplay on b).rx = s.rx := rfl
@[simp] theorem setDisplay_busRx (s : State) (on : Bool) (b : BitVec 3) : (s.setDisplay on b).busRx = s.busRx := rfl
@[simp] theorem setDisplay_keys (s : State) (on : Bool) (b : BitVec 3) : (s.setDisplay on b).keys = s.keys := rfl
@[simp] theorem setDisplay_seen (s : State) (on : Bool) (b : BitVec 3) : (s.setDisplay on b).seen = s.seen := rfl
@[simp] theorem setDisplay_input (s : State) (on : Bool) (b : BitVec 3) : (s.setDisplay on b).input = s.input := rfl
@[simp] theorem setDisplay_draws (s : State) (on : Bool) (b : BitVec 3) : (s.setDisplay on b).draws = s.draws := rfl

@[simp] theorem setHost_dm (s : State) (on : Bool) (b : BitVec 3) : (s.setHost on b).dm = s.dm := rfl
@[simp] theorem setHost_ptr (s : State) (on : Bool) (b : BitVec 3) : (s.setHost on b).ptr = s.ptr := rfl
@[simp] theorem setHost_rw (s : State) (on : Bool) (b : BitVec 3) : (s.setHost on b).rw = s.rw := rfl
@[simp] theorem setHost_ainc (s : State) (on : Bool) (b : BitVec 3) : (s.setHost on b).ainc = s.ainc := rfl
@[simp] theorem setHost_test (s : State) (on : Bool) (b : BitVec 3) : (s.setHost on b).test = s.test := rfl
@[simp] theorem setHost_don (s : State) (on : Bool) (b : BitVec 3) : (s.setHost on b).don = s.don := rfl
@[simp] theorem setHost_brt (s : State) (on : Bool) (b : BitVec 3) : (s.setHost on b).brt = s.brt := rfl
@[simp] theorem setHost_cs (s : State) (on : Bool) (b : BitVec 3) : (s.setHost on b).cs = s.cs := rfl
@[simp] theorem setHost_seq (s : State) (on : Bool) (b : BitVec 3) : (s.setHost on b).seq = s.seq := rfl
@[simp] theorem setHost_refused (s : State) (on : Bool) (b : BitVec 3) : (s.setHost on b).refused = s.refused := rfl
@[simp] theorem setHost_faults (s : State) (on : Bool) (b : BitVec 3) : (s.setHost on b).faults = s.faults := rfl
@[simp] theorem setHost_hDon (s : State) (on : Bool) (b : BitVec 3) : (s.setHost on b).hDon = on := rfl
@[simp] theorem setHost_hBrt (s : State) (on : Bool) (b : BitVec 3) : (s.setHost on b).hBrt = b := rfl
@[simp] theorem setHost_shadow (s : State) (on : Bool) (b : BitVec 3) : (s.setHost on b).shadow = s.shadow := rfl
@[simp] theorem setHost_col (s : State) (on : Bool) (b : BitVec 3) : (s.setHost on b).col = s.col := rfl
@[simp] theorem setHost_rx (s : State) (on : Bool) (b : BitVec 3) : (s.setHost on b).rx = s.rx := rfl
@[simp] theorem setHost_busRx (s : State) (on : Bool) (b : BitVec 3) : (s.setHost on b).busRx = s.busRx := rfl
@[simp] theorem setHost_keys (s : State) (on : Bool) (b : BitVec 3) : (s.setHost on b).keys = s.keys := rfl
@[simp] theorem setHost_seen (s : State) (on : Bool) (b : BitVec 3) : (s.setHost on b).seen = s.seen := rfl
@[simp] theorem setHost_input (s : State) (on : Bool) (b : BitVec 3) : (s.setHost on b).input = s.input := rfl
@[simp] theorem setHost_draws (s : State) (on : Bool) (b : BitVec 3) : (s.setHost on b).draws = s.draws := rfl

@[simp] theorem setKeys_dm (s : State) (k : KeyScan) : (s.setKeys k).dm = s.dm := rfl
@[simp] theorem setKeys_ptr (s : State) (k : KeyScan) : (s.setKeys k).ptr = s.ptr := rfl
@[simp] theorem setKeys_rw (s : State) (k : KeyScan) : (s.setKeys k).rw = s.rw := rfl
@[simp] theorem setKeys_ainc (s : State) (k : KeyScan) : (s.setKeys k).ainc = s.ainc := rfl
@[simp] theorem setKeys_test (s : State) (k : KeyScan) : (s.setKeys k).test = s.test := rfl
@[simp] theorem setKeys_don (s : State) (k : KeyScan) : (s.setKeys k).don = s.don := rfl
@[simp] theorem setKeys_brt (s : State) (k : KeyScan) : (s.setKeys k).brt = s.brt := rfl
@[simp] theorem setKeys_cs (s : State) (k : KeyScan) : (s.setKeys k).cs = s.cs := rfl
@[simp] theorem setKeys_seq (s : State) (k : KeyScan) : (s.setKeys k).seq = s.seq := rfl
@[simp] theorem setKeys_refused (s : State) (k : KeyScan) : (s.setKeys k).refused = s.refused := rfl
@[simp] theorem setKeys_faults (s : State) (k : KeyScan) : (s.setKeys k).faults = s.faults := rfl
@[simp] theorem setKeys_hDon (s : State) (k : KeyScan) : (s.setKeys k).hDon = s.hDon := rfl
@[simp] theorem setKeys_hBrt (s : State) (k : KeyScan) : (s.setKeys k).hBrt = s.hBrt := rfl
@[simp] theorem setKeys_shadow (s : State) (k : KeyScan) : (s.setKeys k).shadow = s.shadow := rfl
@[simp] theorem setKeys_col (s : State) (k : KeyScan) : (s.setKeys k).col = s.col := rfl
@[simp] theorem setKeys_rx (s : State) (k : KeyScan) : (s.setKeys k).rx = s.rx := rfl
@[simp] theorem setKeys_busRx (s : State) (k : KeyScan) : (s.setKeys k).busRx = s.busRx := rfl
@[simp] theorem setKeys_keys (s : State) (k : KeyScan) : (s.setKeys k).keys = k := rfl
@[simp] theorem setKeys_seen (s : State) (k : KeyScan) : (s.setKeys k).seen = s.seen := rfl
@[simp] theorem setKeys_input (s : State) (k : KeyScan) : (s.setKeys k).input = s.input := rfl
@[simp] theorem setKeys_draws (s : State) (k : KeyScan) : (s.setKeys k).draws = s.draws := rfl

@[simp] theorem setShadow_dm (s : State) (sh : Memory) : (s.setShadow sh).dm = s.dm := rfl
@[simp] theorem setShadow_ptr (s : State) (sh : Memory) : (s.setShadow sh).ptr = s.ptr := rfl
@[simp] theorem setShadow_rw (s : State) (sh : Memory) : (s.setShadow sh).rw = s.rw := rfl
@[simp] theorem setShadow_ainc (s : State) (sh : Memory) : (s.setShadow sh).ainc = s.ainc := rfl
@[simp] theorem setShadow_test (s : State) (sh : Memory) : (s.setShadow sh).test = s.test := rfl
@[simp] theorem setShadow_don (s : State) (sh : Memory) : (s.setShadow sh).don = s.don := rfl
@[simp] theorem setShadow_brt (s : State) (sh : Memory) : (s.setShadow sh).brt = s.brt := rfl
@[simp] theorem setShadow_cs (s : State) (sh : Memory) : (s.setShadow sh).cs = s.cs := rfl
@[simp] theorem setShadow_seq (s : State) (sh : Memory) : (s.setShadow sh).seq = s.seq := rfl
@[simp] theorem setShadow_refused (s : State) (sh : Memory) : (s.setShadow sh).refused = s.refused := rfl
@[simp] theorem setShadow_faults (s : State) (sh : Memory) : (s.setShadow sh).faults = s.faults := rfl
@[simp] theorem setShadow_hDon (s : State) (sh : Memory) : (s.setShadow sh).hDon = s.hDon := rfl
@[simp] theorem setShadow_hBrt (s : State) (sh : Memory) : (s.setShadow sh).hBrt = s.hBrt := rfl
@[simp] theorem setShadow_shadow (s : State) (sh : Memory) : (s.setShadow sh).shadow = sh := rfl
@[simp] theorem setShadow_col (s : State) (sh : Memory) : (s.setShadow sh).col = s.col := rfl
@[simp] theorem setShadow_rx (s : State) (sh : Memory) : (s.setShadow sh).rx = s.rx := rfl
@[simp] theorem setShadow_busRx (s : State) (sh : Memory) : (s.setShadow sh).busRx = s.busRx := rfl
@[simp] theorem setShadow_keys (s : State) (sh : Memory) : (s.setShadow sh).keys = s.keys := rfl
@[simp] theorem setShadow_seen (s : State) (sh : Memory) : (s.setShadow sh).seen = s.seen := rfl
@[simp] theorem setShadow_input (s : State) (sh : Memory) : (s.setShadow sh).input = s.input := rfl
@[simp] theorem setShadow_draws (s : State) (sh : Memory) : (s.setShadow sh).draws = s.draws := rfl

@[simp] theorem setCol_dm (s : State) (c : Nat) : (s.setCol c).dm = s.dm := rfl
@[simp] theorem setCol_ptr (s : State) (c : Nat) : (s.setCol c).ptr = s.ptr := rfl
@[simp] theorem setCol_rw (s : State) (c : Nat) : (s.setCol c).rw = s.rw := rfl
@[simp] theorem setCol_ainc (s : State) (c : Nat) : (s.setCol c).ainc = s.ainc := rfl
@[simp] theorem setCol_test (s : State) (c : Nat) : (s.setCol c).test = s.test := rfl
@[simp] theorem setCol_don (s : State) (c : Nat) : (s.setCol c).don = s.don := rfl
@[simp] theorem setCol_brt (s : State) (c : Nat) : (s.setCol c).brt = s.brt := rfl
@[simp] theorem setCol_cs (s : State) (c : Nat) : (s.setCol c).cs = s.cs := rfl
@[simp] theorem setCol_seq (s : State) (c : Nat) : (s.setCol c).seq = s.seq := rfl
@[simp] theorem setCol_refused (s : State) (c : Nat) : (s.setCol c).refused = s.refused := rfl
@[simp] theorem setCol_faults (s : State) (c : Nat) : (s.setCol c).faults = s.faults := rfl
@[simp] theorem setCol_hDon (s : State) (c : Nat) : (s.setCol c).hDon = s.hDon := rfl
@[simp] theorem setCol_hBrt (s : State) (c : Nat) : (s.setCol c).hBrt = s.hBrt := rfl
@[simp] theorem setCol_shadow (s : State) (c : Nat) : (s.setCol c).shadow = s.shadow := rfl
@[simp] theorem setCol_col (s : State) (c : Nat) : (s.setCol c).col = c := rfl
@[simp] theorem setCol_rx (s : State) (c : Nat) : (s.setCol c).rx = s.rx := rfl
@[simp] theorem setCol_busRx (s : State) (c : Nat) : (s.setCol c).busRx = s.busRx := rfl
@[simp] theorem setCol_keys (s : State) (c : Nat) : (s.setCol c).keys = s.keys := rfl
@[simp] theorem setCol_seen (s : State) (c : Nat) : (s.setCol c).seen = s.seen := rfl
@[simp] theorem setCol_input (s : State) (c : Nat) : (s.setCol c).input = s.input := rfl
@[simp] theorem setCol_draws (s : State) (c : Nat) : (s.setCol c).draws = s.draws := rfl

@[simp] theorem placeByte_dm (s : State) (b : Byte) : (s.placeByte b).dm = s.dm := rfl
@[simp] theorem placeByte_ptr (s : State) (b : Byte) : (s.placeByte b).ptr = s.ptr := rfl
@[simp] theorem placeByte_rw (s : State) (b : Byte) : (s.placeByte b).rw = s.rw := rfl
@[simp] theorem placeByte_ainc (s : State) (b : Byte) : (s.placeByte b).ainc = s.ainc := rfl
@[simp] theorem placeByte_test (s : State) (b : Byte) : (s.placeByte b).test = s.test := rfl
@[simp] theorem placeByte_don (s : State) (b : Byte) : (s.placeByte b).don = s.don := rfl
@[simp] theorem placeByte_brt (s : State) (b : Byte) : (s.placeByte b).brt = s.brt := rfl
@[simp] theorem placeByte_cs (s : State) (b : Byte) : (s.placeByte b).cs = .asserted := rfl
@[simp] theorem placeByte_seq (s : State) (b : Byte) : (s.placeByte b).seq = tableSeq b := rfl
@[simp] theorem placeByte_refused (s : State) (b : Byte) : (s.placeByte b).refused = s.refused := rfl
@[simp] theorem placeByte_faults (s : State) (b : Byte) : (s.placeByte b).faults = s.faults := rfl
@[simp] theorem placeByte_hDon (s : State) (b : Byte) : (s.placeByte b).hDon = s.hDon := rfl
@[simp] theorem placeByte_hBrt (s : State) (b : Byte) : (s.placeByte b).hBrt = s.hBrt := rfl
@[simp] theorem placeByte_shadow (s : State) (b : Byte) : (s.placeByte b).shadow = s.shadow := rfl
@[simp] theorem placeByte_col (s : State) (b : Byte) : (s.placeByte b).col = s.col := rfl
@[simp] theorem placeByte_rx (s : State) (b : Byte) : (s.placeByte b).rx = s.rx := rfl
@[simp] theorem placeByte_busRx (s : State) (b : Byte) : (s.placeByte b).busRx = s.busRx := rfl
@[simp] theorem placeByte_keys (s : State) (b : Byte) : (s.placeByte b).keys = s.keys := rfl
@[simp] theorem placeByte_seen (s : State) (b : Byte) : (s.placeByte b).seen = s.seen := rfl
@[simp] theorem placeByte_input (s : State) (b : Byte) : (s.placeByte b).input = .xfer b :: s.input := rfl
@[simp] theorem placeByte_draws (s : State) (b : Byte) : (s.placeByte b).draws = s.draws := rfl

/-! A data byte in either mode changes display memory alone (R161, R162). -/

@[simp] theorem takeData_ptr (s : State) (m : RwMode) (a : Fin 16) (d : Byte) : (s.takeData m a d).ptr = s.ptr := by
  cases m <;> rfl
@[simp] theorem takeData_rw (s : State) (m : RwMode) (a : Fin 16) (d : Byte) : (s.takeData m a d).rw = s.rw := by
  cases m <;> rfl
@[simp] theorem takeData_ainc (s : State) (m : RwMode) (a : Fin 16) (d : Byte) : (s.takeData m a d).ainc = s.ainc := by
  cases m <;> rfl
@[simp] theorem takeData_test (s : State) (m : RwMode) (a : Fin 16) (d : Byte) : (s.takeData m a d).test = s.test := by
  cases m <;> rfl
@[simp] theorem takeData_don (s : State) (m : RwMode) (a : Fin 16) (d : Byte) : (s.takeData m a d).don = s.don := by
  cases m <;> rfl
@[simp] theorem takeData_brt (s : State) (m : RwMode) (a : Fin 16) (d : Byte) : (s.takeData m a d).brt = s.brt := by
  cases m <;> rfl
@[simp] theorem takeData_cs (s : State) (m : RwMode) (a : Fin 16) (d : Byte) : (s.takeData m a d).cs = s.cs := by
  cases m <;> rfl
@[simp] theorem takeData_seq (s : State) (m : RwMode) (a : Fin 16) (d : Byte) : (s.takeData m a d).seq = s.seq := by
  cases m <;> rfl
@[simp] theorem takeData_refused (s : State) (m : RwMode) (a : Fin 16) (d : Byte) : (s.takeData m a d).refused = s.refused := by
  cases m <;> rfl
@[simp] theorem takeData_faults (s : State) (m : RwMode) (a : Fin 16) (d : Byte) : (s.takeData m a d).faults = s.faults := by
  cases m <;> rfl
@[simp] theorem takeData_hDon (s : State) (m : RwMode) (a : Fin 16) (d : Byte) : (s.takeData m a d).hDon = s.hDon := by
  cases m <;> rfl
@[simp] theorem takeData_hBrt (s : State) (m : RwMode) (a : Fin 16) (d : Byte) : (s.takeData m a d).hBrt = s.hBrt := by
  cases m <;> rfl
@[simp] theorem takeData_shadow (s : State) (m : RwMode) (a : Fin 16) (d : Byte) : (s.takeData m a d).shadow = s.shadow := by
  cases m <;> rfl
@[simp] theorem takeData_col (s : State) (m : RwMode) (a : Fin 16) (d : Byte) : (s.takeData m a d).col = s.col := by
  cases m <;> rfl
@[simp] theorem takeData_rx (s : State) (m : RwMode) (a : Fin 16) (d : Byte) : (s.takeData m a d).rx = s.rx := by
  cases m <;> rfl
@[simp] theorem takeData_busRx (s : State) (m : RwMode) (a : Fin 16) (d : Byte) : (s.takeData m a d).busRx = s.busRx := by
  cases m <;> rfl
@[simp] theorem takeData_keys (s : State) (m : RwMode) (a : Fin 16) (d : Byte) : (s.takeData m a d).keys = s.keys := by
  cases m <;> rfl
@[simp] theorem takeData_seen (s : State) (m : RwMode) (a : Fin 16) (d : Byte) : (s.takeData m a d).seen = s.seen := by
  cases m <;> rfl
@[simp] theorem takeData_input (s : State) (m : RwMode) (a : Fin 16) (d : Byte) : (s.takeData m a d).input = s.input := by
  cases m <;> rfl
@[simp] theorem takeData_draws (s : State) (m : RwMode) (a : Fin 16) (d : Byte) : (s.takeData m a d).draws = s.draws := by
  cases m <;> rfl
@[simp] theorem takeData_write_dm (s : State) (a : Fin 16) (d : Byte) : (s.takeData .write a d).dm = memWrite s.dm a d := rfl
@[simp] theorem takeData_read (s : State) (a : Fin 16) (d : Byte) : s.takeData .read a d = s := rfl

end State

end Sys2Proof.Machine
end

