-- ==== Sys2Proof/Laws/Exec.lean ====
section
/-!
SUPPORT. What each meaning and each shared operation can do, said once.
-/

namespace Sys2Proof.Machine

/-- `refuse` never answers a next state (R281). -/
@[simp] theorem refuse_ne_next (c : RefusalCode) (s t : State) : refuse c s ≠ .next t := by simp [refuse]

@[simp] theorem fault_ne_next (f : Fault) (t : State) :
    (Host.Outcome.fault f : Host.Outcome State Fault Refusal) ≠ .next t := by simp

/-- Recording a fault removes none and adds that one (R283). -/
theorem mem_addFault (fs : List FaultCode) (f g : FaultCode) : g ∈ addFault fs f ↔ g ∈ fs ∨ g = f := by
  unfold addFault
  split
  · exact ⟨.inl, fun h => h.elim id fun h => h ▸ ‹_›⟩
  · simp

/-- The recorded codes stay a set (R20). -/
theorem addFault_nodup (fs : List FaultCode) (f : FaultCode) (h : fs.Nodup) : (addFault fs f).Nodup := by
  unfold addFault
  split
  · exact h
  · rename_i hf
    exact List.nodup_append.2 ⟨h, by simp, fun a ha b hb he => hf (List.mem_singleton.1 hb ▸ he ▸ ha)⟩

/-- A data byte answers a next state in these circumstances only, and that one (R161, R162). -/
theorem execData_next (d : Byte) (s t : State) (h : execData d s = .next t) :
    ∃ m, ∃ a : Fin 16, s.rw = .known m ∧ s.ptr = .known ⟨a.val, by omega⟩ ∧
      t = ((s.takeData m a d).setPtr (ptrAfter a)).reply (lineDraw s) := by
  unfold execData at h
  split at h
  · simp at h
  · split at h
    · simp at h
    · split at h
      · rename_i m hm _ p hp hlt
        exact ⟨m, ⟨p.val, hlt⟩, hm, hp, by injection h with h; exact h.symm⟩
      · simp at h

/-- A read byte answers a next state at `KEY_READ(k)`, k below 4, only (R181). -/
theorem execRdkey_next (s t : State) (h : execRdkey s = .next t) :
    ∃ k : Fin 4, s.seq = .keyRead k.castSucc ∧ t = (s.setSeq (nextRead k)).reply (keyDraw s k) := by
  unfold execRdkey at h
  split at h
  · split at h
    · rename_i k hk hlt
      exact ⟨⟨k.val, hlt⟩, hk, by injection h with h; exact h.symm⟩
    · simp at h
  all_goals simp at h

/-- What every instruction that completes leaves alone: chip-select, the run's marks, and everything of the host but
the byte it receives, which it flips once (R115, R116, R281, R283). -/
structure ExecKeeps (s t : State) : Prop where
  cs : t.cs = s.cs
  refused : t.refused = s.refused
  faults : t.faults = s.faults
  hDon : t.hDon = s.hDon
  hBrt : t.hBrt = s.hBrt
  shadow : t.shadow = s.shadow
  col : t.col = s.col
  keys : t.keys = s.keys
  seen : t.seen = s.seen
  input : t.input = s.input
  draws : t.draws = s.draws + 1
  received : ∃ r, t.busRx = s.busRx ++ [r] ∧ t.rx = s.rx ++ [flipByte r]

theorem exec_keeps (i : Instr) (s t : State) (h : exec i s = .next t) : ExecKeeps s t := by
  cases i with
  | data d =>
    obtain ⟨m, a, -, -, rfl⟩ := execData_next d s t h
    constructor <;> simp
  | rdkey =>
    obtain ⟨k, -, rfl⟩ := execRdkey_next s t h
    constructor <;> simp
  | dsetW => cases h; constructor <;> simp
  | dsetR => cases h; constructor <;> simp
  | addr a => cases h; constructor <;> simp
  | dctrl n b => cases h; constructor <;> simp
  | reservedClass00 x => exact absurd h (refuse_ne_next _ _ _)
  | dsetReservedBit0 x => exact absurd h (refuse_ne_next _ _ _)
  | dsetReservedBits54 r x => exact absurd h (refuse_ne_next _ _ _)
  | dsetFixedAddress u r => exact absurd h (refuse_ne_next _ _ _)
  | dsetTestMode r => exact absurd h (refuse_ne_next _ _ _)
  | addrReservedBits54 r a => exact absurd h (refuse_ne_next _ _ _)
  | dctrlReservedBits54 r n b => exact absurd h (refuse_ne_next _ _ _)

/-- An adapter operation that completes has a known shadow edit and a known flush range (R243, R260). -/
theorem commitEdit_next (e : ShadowEdit) (after : List Input) (s t : State) (h : commitEdit e after s = .next t) :
    ∃ (sh : Memory) (a : List (Fin 16)) (es : List Input), e = some (sh, a) ∧ flushEvents sh a = some es ∧ t = (s.setShadow sh).issue (es ++ after) := by
  unfold commitEdit at h
  split at h
  · simp at h
  · split at h
    · simp at h
    · injection h with h
      exact ⟨_, _, _, rfl, ‹_›, h.symm⟩

end Sys2Proof.Machine
end

