-- ==== Sys2Proof/Laws/Board.lean ====
section
/-!
SUPPORT. What the board adapter's shared operations do: the flush range, the bit edit, the commit of an edit.
-/

namespace Sys2Proof.Machine

/-- `withBit` sets bit `k` and keeps every other bit. -/
theorem withBit_getLsbD (b : Byte) (k : Fin 8) (v : Bool) (j : Nat) :
    (withBit b k v).getLsbD j = if j = k.val then v else b.getLsbD j := by
  have hk := k.isLt
  by_cases hj : j < 8
  · cases v <;> by_cases h : j = k.val <;> simp [withBit, hj, h] <;> omega
  · rw [BitVec.getLsbD_of_ge _ _ (by omega), BitVec.getLsbD_of_ge _ _ (by omega), if_neg (by omega)]

/-- The smallest of a nonempty list of addresses. -/
theorem lowest_spec (a : Fin 16) (t : List (Fin 16)) : lowest a t ∈ a :: t ∧ ∀ b ∈ a :: t, lowest a t ≤ b := by
  unfold lowest
  induction t generalizing a with
  | nil => simp
  | cons c t ih =>
    obtain ⟨h1, h2⟩ := ih (min a c)
    have h3 := h2 _ List.mem_cons_self
    simp only [List.foldl_cons]
    refine ⟨?_, fun b hb => ?_⟩
    · rcases List.mem_cons.1 h1 with h | h
      · rw [h]; rcases min_choice a c with e | e <;> rw [e] <;> simp
      · simp [h]
    · simp only [List.mem_cons] at hb
      obtain rfl | rfl | hb := hb
      · exact h3.trans (min_le_left _ _)
      · exact h3.trans (min_le_right _ _)
      · exact h2 b (List.mem_cons_of_mem _ hb)

/-- The largest of a nonempty list of addresses. -/
theorem highest_spec (a : Fin 16) (t : List (Fin 16)) : highest a t ∈ a :: t ∧ ∀ b ∈ a :: t, b ≤ highest a t := by
  unfold highest
  induction t generalizing a with
  | nil => simp
  | cons c t ih =>
    obtain ⟨h1, h2⟩ := ih (max a c)
    have h3 := h2 _ List.mem_cons_self
    simp only [List.foldl_cons]
    refine ⟨?_, fun b hb => ?_⟩
    · rcases List.mem_cons.1 h1 with h | h
      · rw [h]; rcases max_choice a c with e | e <;> rw [e] <;> simp
      · simp [h]
    · simp only [List.mem_cons] at hb
      obtain rfl | rfl | hb := hb
      · exact (le_max_left _ _).trans h3
      · exact (le_max_right _ _).trans h3
      · exact h2 b (List.mem_cons_of_mem _ hb)

/-- The flush of a set of addresses whose smallest and largest are known (R243): the clamp of `writeBlock` never cuts
it. -/
theorem flushEvents_range (sh : Memory) (t : List (Fin 16)) (lo hi : Fin 16) (hl : lo ∈ t) (hh : hi ∈ t)
    (hb : ∀ a ∈ t, lo ≤ a ∧ a ≤ hi) :
    flushEvents sh t = (readRange sh lo.val (hi.val - lo.val + 1)).map (blockEvents (BitVec.ofNat 4 lo.val)) := by
  cases t with
  | nil => simp at hl
  | cons a t =>
    have e1 : lowest a t = lo := le_antisymm ((lowest_spec a t).2 lo hl) (hb _ (lowest_spec a t).1).1
    have e2 : highest a t = hi := le_antisymm (hb _ (highest_spec a t).1).2 ((highest_spec a t).2 hi hh)
    have hc : clampLength (maskAddress lo.val) (hi.val - lo.val + 1) = hi.val - lo.val + 1 := by
      have := hi.isLt
      have : lo.val ≤ hi.val := (hb lo hl).2
      simp [clampLength, maskAddress]; omega
    simp only [flushEvents, e1, e2, hc]; rfl

/-- An admitted edit: the shadow is the edit's, the flush and `after` come next (R243). -/
theorem commitEdit_some (s : State) (e : ShadowEdit) (sh : Memory) (a : List (Fin 16)) (es after : List Input)
    (he : e = some (sh, a)) (hf : flushEvents sh a = some es) :
    commitEdit e after s = .next ((s.setShadow sh).issue (es ++ after)) := by
  subst he; simp only [commitEdit, hf]

/-- An edit that reads or flushes an unknown byte is refused (R243, R260). -/
theorem commitEdit_unknown (s : State) (e : ShadowEdit) (after : List Input)
    (he : e = none ∨ ∃ sh a, e = some (sh, a) ∧ flushEvents sh a = none) :
    commitEdit e after s = refuse .shadowUnknown s := by
  obtain rfl | ⟨sh, a, rfl, hf⟩ := he
  · rfl
  · simp only [commitEdit, hf]

/-- An edit of listed segment bytes leaves every other byte (R252). -/
theorem editSegments_frame (p : Params) (k : Fin 8) (pattern : BitVec 16) (l : List (Fin 7)) (sh sh' : Memory)
    (h : editSegments p k pattern l sh = some sh') (a : Nat) (ha : ∀ i ∈ l, a ≠ (p.segAddr i).val) :
    memRead sh' a = memRead sh a := by
  induction l generalizing sh with
  | nil => simp only [editSegments, Option.some.injEq] at h; rw [h]
  | cons i l ih =>
    simp only [editSegments, editBit] at h
    split at h
    · cases h
    · rename_i m hm
      split at hm
      · cases hm
      · cases hm
        rw [ih _ h fun j hj => ha j (List.mem_cons_of_mem _ hj),
          memRead_memWrite_other _ _ _ _ (ha i List.mem_cons_self)]

end Sys2Proof.Machine
end

