-- ==== Sys2Proof/Laws/PerInstr.lean ====
section
/-!
SUPPORT. Per-instruction facts about the encoding: the encoder's byte has the fixed bits of its row of
spec/opcode_table.json.
-/

namespace Sys2Proof.Laws.RowMatch

/-- A well-formed instruction's byte, masked by its row's "mask", is the row's "match". -/
def Statement (i : Instr) : Prop := i.WellFormed → encode i &&& (rowMaskMatch i).1 = (rowMaskMatch i).2

theorem dsetW : Statement .dsetW := by intro _; decide
theorem dsetR : Statement .dsetR := by intro _; decide
theorem addr (a : BitVec 4) : Statement (.addr a) := by intro _; revert a; decide
theorem dctrl (n : Bool) (b : BitVec 3) : Statement (.dctrl n b) := by intro _; revert n b; decide
theorem data (d : BitVec 8) : Statement (.data d) := by intro _; simp [rowMaskMatch]
theorem rdkey : Statement .rdkey := by intro _; decide
theorem reservedClass00 (x : BitVec 6) : Statement (.reservedClass00 x) := by intro _; revert x; decide
theorem dsetReservedBit0 (x : BitVec 5) : Statement (.dsetReservedBit0 x) := by intro _; revert x; decide
theorem dsetReservedBits54 (s : BitVec 2) (x : BitVec 4) : Statement (.dsetReservedBits54 s x) := by
  intro _; clear * -; revert s x; decide
theorem dsetFixedAddress (t r : Bool) : Statement (.dsetFixedAddress t r) := by intro _; revert t r; decide
theorem dsetTestMode (r : Bool) : Statement (.dsetTestMode r) := by intro _; revert r; decide
theorem addrReservedBits54 (s : BitVec 2) (a : BitVec 4) : Statement (.addrReservedBits54 s a) := by
  intro _; clear * -; revert s a; decide
theorem dctrlReservedBits54 (s : BitVec 2) (n : Bool) (b : BitVec 3) : Statement (.dctrlReservedBits54 s n b) := by
  intro _; clear * -; revert s n b; decide

end Sys2Proof.Laws.RowMatch
end

