-- ==== Sys2Proof/Laws/Step.lean ====
section
/-!
SUPPORT. What an event and a step can do, said once: the inversions that proofs about steps cite.
-/

namespace Sys2Proof.Machine

/-- A command byte is never read as a data byte. -/
theorem decodeCommand_ne_data (m d : Byte) : decodeCommand m ≠ .data d := by
  unfold decodeCommand decodeDset decodeDctrl decodeAddr
  repeat' split
  all_goals simp

/-- A data byte is read at `ADDR_DATA` only, and whole (R86, R90). -/
theorem decode_data (q : Seq) (m d : Byte) (h : decode q m = .ok (.data d)) : q = .addrData ∧ d = m := by
  cases q <;> simp only [decode] at h
  · cases h
  · injection h with h; exact absurd h (decodeCommand_ne_data _ _)
  · cases h
  · cases h; exact ⟨rfl, rfl⟩
  · split at h
    · cases h
    · split at h <;> cases h

/-- Every instruction but `DATA` and `RDKEY` is read as a command byte, at `EXPECT_CMD` only (R90). -/
theorem decode_command (q : Seq) (m : Byte) (i : Instr) (h : decode q m = .ok i) (hd : ∀ d, i ≠ .data d)
    (hk : i ≠ .rdkey) : q = .expectCmd ∧ decodeCommand m = i := by
  cases q <;> simp only [decode] at h
  · cases h
  · cases h; exact ⟨rfl, rfl⟩
  · cases h
  · cases h; exact absurd rfl (hd _)
  · split at h
    · cases h; exact absurd rfl hk
    · split at h <;> cases h

/-- A read byte that is not 0xFF (R183, R184, R284). -/
theorem decode_keyRead_other (k : Fin 5) (m : Byte) (h : m ≠ 0xFF) :
    decode (.keyRead k) m = if k.val = 4 then .error .readOverrun else .error .readMosi := by
  unfold decode
  simp only
  rw [if_neg h]

/-- A byte exchange that completes is an admitted instruction at its position, with chip-select asserted (R112,
R113). -/
theorem transfer_next (m : Byte) (s t : State) (h : transfer m s = .next t) :
    s.cs = .asserted ∧ ∃ i, decode s.seq m = .ok i ∧ exec i s = .next t := by
  unfold transfer at h
  split at h
  · simp at h
  · split at h
    · simp at h
    · exact ⟨‹_›, _, ‹_›, h⟩

theorem transfer_ok (m : Byte) (s : State) (i : Instr) (hc : s.cs = .asserted) (hd : decode s.seq m = .ok i) :
    transfer m s = exec i s := by simp [transfer, hc, hd]

theorem transfer_error (m : Byte) (s : State) (c : RefusalCode) (hc : s.cs = .asserted)
    (hd : decode s.seq m = .error c) : transfer m s = refuse c s := by simp [transfer, hc, hd]

theorem csAssert_next (s t : State) (h : csAssert s = .next t) : s.cs = .deasserted ∧ t = s.openTransaction := by
  unfold csAssert at h
  split at h
  · simp at h
  · exact ⟨‹_›, by injection h with h; exact h.symm⟩

theorem csDeassert_next (s t : State) (h : csDeassert s = .next t) : s.cs = .asserted ∧ t = s.closeTransaction := by
  unfold csDeassert at h
  split at h
  · exact ⟨‹_›, by injection h with h; exact h.symm⟩
  · simp at h

theorem transcribe_next (l : List Bool) (s t : State) (h : transcribe l s = .next t) :
    ∃ bs, wholeBytes l = some bs ∧ t = s.issue (bs.map .xfer) := by
  unfold transcribe at h
  split at h
  · simp at h
  · exact ⟨_, ‹_›, by injection h with h; exact h.symm⟩

/-- The two things an observation does: it has a value, or it records its fault (R165, R282). -/
theorem observeLit_next (g : Fin 8) (j : Fin 16) (s t : State) (h : observeLit g j s = .next t) :
    (∃ v, litValue s g j = .known v ∧ t = s.setSeen (.lit v)) ∨
      (litValue s g j = .bot ∧ t = (s.recordFault .unwrittenState).setSeen .noValue) := by
  unfold observeLit at h
  split at h <;> injection h with h
  · exact .inr ⟨‹_›, h.symm⟩
  · exact .inl ⟨_, ‹_›, h.symm⟩

theorem observeLevel_next (s t : State) (h : observeLevel s = .next t) :
    (∃ b, s.brt = .known b ∧ t = s.setSeen (.level b)) ∨
      (s.brt = .bot ∧ t = (s.recordFault .unwrittenState).setSeen .noValue) := by
  unfold observeLevel at h
  split at h <;> injection h with h
  · exact .inr ⟨‹_›, h.symm⟩
  · exact .inl ⟨_, ‹_›, h.symm⟩

/-- What a host or board operation can change: the host's own fields and what the host does next. The chip is touched
by events only (R110). -/
structure HostOnly (s t : State) : Prop where
  dm : t.dm = s.dm
  ptr : t.ptr = s.ptr
  rw : t.rw = s.rw
  ainc : t.ainc = s.ainc
  test : t.test = s.test
  don : t.don = s.don
  brt : t.brt = s.brt
  cs : t.cs = s.cs
  seq : t.seq = s.seq
  refused : t.refused = s.refused
  faults : t.faults = s.faults
  rx : t.rx = s.rx
  busRx : t.busRx = s.busRx
  seen : t.seen = s.seen
  draws : t.draws = s.draws

theorem commitEdit_hostOnly (e : ShadowEdit) (after : List Input) (s t : State) (h : commitEdit e after s = .next t) :
    HostOnly s t := by
  obtain ⟨sh, a, es, -, -, rfl⟩ := commitEdit_next e after s t h
  constructor <;> rfl

theorem runOp_hostOnly (p : Params) (o : HostOp) (s t : State) (h : runOp p o s = .next t) : HostOnly s t := by
  cases o with
  | putc ch =>
    simp only [runOp, boardPutc] at h
    split at h
    · cases h; constructor <;> rfl
    · split at h
      · split at h
        · cases h; constructor <;> rfl
        · exact commitEdit_hostOnly _ _ _ _ h
      · split at h
        · exact commitEdit_hostOnly _ _ _ _ h
        · cases h; constructor <;> rfl
  | writeCell c ch => exact commitEdit_hostOnly _ _ _ _ h
  | setIcon id =>
    simp only [runOp, boardSetIcon, boardIcon] at h
    split at h
    · exact commitEdit_hostOnly _ _ _ _ h
    · simp at h
  | clrIcon id =>
    simp only [runOp, boardClrIcon, boardIcon] at h
    split at h
    · exact commitEdit_hostOnly _ _ _ _ h
    · simp at h
  | customGlyph => exact absurd h (refuse_ne_next _ _ _)
  | init => cases h; constructor <;> rfl
  | setBrightness x => cases h; constructor <;> rfl
  | setDisplayOn on => cases h; constructor <;> rfl
  | writeByte data address => cases h; constructor <;> rfl
  | writeBlock buf length address => cases h; constructor <;> rfl
  | clearScreen => cases h; constructor <;> rfl
  | scanKeys => cases h; constructor <;> rfl
  | locate c => cases h; constructor <;> rfl
  | clearAll => cases h; constructor <;> rfl

/-- A step that answers a next state is a quiet host, or the first entry of its input, in a run not refused (R63,
R283). -/
theorem stepWith_next (p : Params) (s t : State) (h : stepWith p s = .next t) :
    s.refused = none ∧
      ((s.input = [] ∧ t = s) ∨ ∃ e rest, s.input = e :: rest ∧ runInput p e (s.setInput rest) = .next t) := by
  unfold stepWith at h
  split at h
  · cases h
  · split at h
    · exact ⟨‹_›, .inl ⟨‹_›, by injection h with h; exact h.symm⟩⟩
    · exact ⟨‹_›, .inr ⟨_, _, ‹_›, h⟩⟩

/-- The step of a run not refused whose input is not empty. -/
theorem stepWith_input (p : Params) (s : State) (e : Input) (rest : List Input) (hr : s.refused = none)
    (hi : s.input = e :: rest) : stepWith p s = runInput p e (s.setInput rest) := by
  simp [stepWith, hr, hi]

/-- A run of `k + 1` steps from a state whose step is known. -/
theorem run_succ (k : Nat) (s t : State) (h : step s = .next t) :
    Sys2Proof.core.run (k + 1) s = Sys2Proof.core.run k t := by
  have h' : Sys2Proof.core.step s = .next t := h
  simp only [Host.Core.run, h']

/-- A run of `a + b` steps is one of `a` steps and one of `b` from where it ends. -/
theorem run_add (a b : Nat) (s t : State) (h : Sys2Proof.core.run a s = .next t) :
    Sys2Proof.core.run (a + b) s = Sys2Proof.core.run b t := by
  induction a generalizing s with
  | zero => cases h; simp
  | succ a ih =>
    rw [show a + 1 + b = (a + b) + 1 by omega]
    simp only [Host.Core.run] at h ⊢
    split at h
    · exact ih _ h
    · cases h
    · cases h

end Sys2Proof.Machine
end

