-- ==== Sys2Proof/Tests/Slice0.lean ====
section
/-!
SUPPORT. The model's own tests: ill-formed terms, decoding of words written out from spec/30_encoding.md, one-step vectors
of spec/95_test_vectors.md (each names its id there), and, for each statement with hypotheses, a witness that meets them.
-/

namespace Sys2Proof.Tests

open Sys2Proof Sys2Proof.Machine

/-! ### Helpers -/

/-- What holds of the state an outcome goes on to; false of a stop. -/
def goesOn (r : Host.Outcome State Fault Refusal) (f : State → Bool) : Bool :=
  match r with
  | .next t => f t
  | .fault _ => false
  | .refused _ => false

/-- The code an outcome is refused with. -/
def code (r : Host.Outcome State Fault Refusal) : Option RefusalCode :=
  match r with
  | .next _ => none
  | .fault _ => none
  | .refused (.event c _) => some c
  | .refused (.runRefused c) => some c
  | .refused (.notModelled _) => none

/-- Selected, at a position. -/
def selected (q : Seq) : State := { State.reset with cs := .asserted, seq := q }

/-- The state after `init` with `BRT_DEFAULT` = 3 (R203). -/
def ready : State :=
  { State.reset with
    rw := .known .write, ainc := .known .inc, test := .known .normal, don := .known true, brt := .known 3, hDon := true,
    hBrt := 3 }

/-- `ready` inside an address-setting transaction, the pointer at `p`, in mode `m`. -/
def writing (m : RwMode) (p : Fin 17) : State :=
  { ready with rw := .known m, ptr := .known p, cs := .asserted, seq := .addrData }

/-- A state whose host does `es` next. -/
def doing (s : State) (es : List Input) : State := { s with input := es }

/-- The instance font of 95_test_vectors.md 2.10. -/
def instanceFont (ch : Byte) : BitVec 16 :=
  if ch = 0x31 then 0x06 else if ch = 0x32 then 0x5B else if ch = 0x38 then 0x7F else if ch = 0x41 then 0x77 else 0

/-- The instance parameters of 95_test_vectors.md, conventions and 2.10. -/
def board (l : Layout) : Params where
  keyMask := 0x77
  brtDefault := 3
  keyPolicy := .strict
  layout := l
  lastCol := 7
  font := instanceFont
  colGrid := fun c => Fin.ofNat 8 c
  iconMaskA := 0x0100
  iconMaskC := 0x0100
  dpBit := 7
  segAddr := fun i => Fin.ofNat 16 (2 * i.val)
  dpAddr := 14
  colBit := fun c => Fin.ofNat 8 c

/-- `ready` with a known shadow buffer and a cursor. -/
def withShadow (sh : Memory) (col : Nat) : State := { ready with shadow := sh, col := col }

/-- The zeroed shadow with some bytes set. -/
def shadowOf (l : List (Fin 16 × Byte)) : Memory := l.foldl (fun m e => memWrite m e.1 e.2) zeroMemory

/-- The buffer of H10 to H14, `buf[i] = 0x10 + i`. -/
def buf : Vector Byte 16 := Vector.ofFn fun i => BitVec.ofNat 8 (0x10 + i.val)

/-- The bus trace an operation asks for. -/
def traceOf (r : Host.Outcome State Fault Refusal) : Option (List (List Byte)) :=
  match r with
  | .next t => some (busTrace t.input)
  | .fault _ => none
  | .refused _ => none

/-! ### Ill-formed terms, one for each check of `wellFormed` -/

theorem test_illformed_dset_reserved54_zero : ¬ (Instr.dsetReservedBits54 0 0x2).WellFormed := by decide
theorem test_illformed_dset_reserved54_bit0 : ¬ (Instr.dsetReservedBits54 1 0x1).WellFormed := by decide
theorem test_illformed_addr_reserved54_zero : ¬ (Instr.addrReservedBits54 0 0x5).WellFormed := by decide
theorem test_illformed_dctrl_reserved54_zero : ¬ (Instr.dctrlReservedBits54 0 true 3).WellFormed := by decide

/-! ### Decoding: a word of each row, its bits written out from R83 to R87 and R89 -/

theorem test_decode_dsetW : decode .expectCmd 0b01000000 = .ok .dsetW := by decide
theorem test_decode_dsetR : decode .expectCmd 0b01000010 = .ok .dsetR := by decide
theorem test_decode_addr : decode .expectCmd 0b11001101 = .ok (.addr 13) := by decide
theorem test_decode_dctrl : decode .expectCmd 0b10001011 = .ok (.dctrl true 3) := by decide
theorem test_decode_dctrl_off : decode .expectCmd 0b10000111 = .ok (.dctrl false 7) := by decide
theorem test_decode_data : decode .addrData 0b00111111 = .ok (.data 0x3F) := by decide
theorem test_decode_rdkey : decode (.keyRead 0) 0b11111111 = .ok .rdkey := by decide
theorem test_decode_reservedClass00 : decode .expectCmd 0b00111111 = .ok (.reservedClass00 0x3F) := by decide
theorem test_decode_dsetReservedBit0 : decode .expectCmd 0b01111111 = .ok (.dsetReservedBit0 0x1F) := by decide
theorem test_decode_dsetReservedBits54 : decode .expectCmd 0b01010000 = .ok (.dsetReservedBits54 1 0) := by decide
theorem test_decode_dsetFixedAddress : decode .expectCmd 0b01001100 = .ok (.dsetFixedAddress true false) := by decide
theorem test_decode_dsetTestMode : decode .expectCmd 0b01001010 = .ok (.dsetTestMode true) := by decide
theorem test_decode_addrReservedBits54 : decode .expectCmd 0b11010011 = .ok (.addrReservedBits54 1 3) := by decide
theorem test_decode_dctrlReservedBits54 :
    decode .expectCmd 0b10111111 = .ok (.dctrlReservedBits54 3 true 7) := by decide
theorem test_decode_closed : decode .closed 0x00 = .error .trailingByte := by rfl
theorem test_decode_idle : decode .idle 0x40 = .error .xferIdle := by rfl

/-- How many of the 256 command bytes have an outcome. -/
def countOf (o : Option RefusalCode) : Nat :=
  ((List.range 256).filter fun n => commandRefusal (decodeCommand (BitVec.ofNat 8 n)) == o).length

/-- R92 and section 2.2: 34 admitted command bytes. -/
theorem test_count_admitted : countOf none = 34 := by decide +kernel
/-- Section 2.2: 64, 152, 4 and 2 refused ones. -/
theorem test_count_refused :
    [countOf (some .reservedCmd), countOf (some .reservedBits), countOf (some .fixedMode), countOf (some .testMode)] =
      [64, 152, 4, 2] := by decide +kernel

/-- Section 2.1: 0x8D, 0xCE and 0x5B flipped. -/
theorem test_flip : [flipByte 0x8D, flipByte 0xCE, flipByte 0x5B] = [0xB1, 0x73, 0xDA] := by decide

/-! ### One step of each instruction -/

/-- C1: from power-up; `PTR`, `DON` and `BRT` stay unknown. -/
theorem test_dsetW : goesOn (exec .dsetW (selected .expectCmd)) (fun t => t.rw == .known .write && t.ainc == .known .inc &&
    t.test == .known .normal && t.seq == .closed && t.ptr == .bot && t.don == .bot) = true := by decide
/-- C3. -/
theorem test_dsetR : goesOn (exec .dsetR { ready with cs := .asserted, seq := .expectCmd }) (fun t =>
    t.rw == .known .read && t.seq == .keyRead 0 && t.brt == .known 3) = true := by decide
/-- C5. -/
theorem test_addr : goesOn (exec (.addr 5) { ready with cs := .asserted, seq := .expectCmd }) (fun t =>
    t.ptr == .known 5 && t.seq == .addrData && t.dm == []) = true := by decide
/-- C4: in read mode. -/
theorem test_dctrl : goesOn (exec (.dctrl false 7) { ready with rw := .known .read, cs := .asserted, seq := .expectCmd })
    (fun t => t.don == .known false && t.brt == .known 7 && t.rw == .known .read && t.seq == .closed) = true := by decide
/-- W2: the byte at address 15 leaves `PTR` = 16; W4: discarded in read mode, the pointer advances. -/
theorem test_data : goesOn (exec (.data 0x01) (writing .write 15)) (fun t =>
      memRead t.dm 15 == .known 0x01 && t.ptr == .known 16 && t.seq == .addrData) = true ∧
    goesOn (exec (.data 0xFF) (writing .read 0)) (fun t => t.dm == [] && t.ptr == .known 1) = true := by decide
/-- W3, W5. -/
theorem test_data_refused : code (exec (.data 0x55) (writing .write 16)) = some .writeOverrun ∧
    code (exec (.data 0x01) { selected .addrData with ptr := .known 0 }) = some .modeUnknown := by decide
/-- K1: the fourth byte. -/
theorem test_rdkey : goesOn (exec .rdkey (selected (.keyRead 3))) (fun t => t.seq == .keyRead 4) = true := by decide
/-- K4, and K5: overrun before the sent value. -/
theorem test_rdkey_refused : code (transfer 0x00 (selected (.keyRead 0))) = some .readMosi ∧
    code (transfer 0x00 (selected (.keyRead 4))) = some .readOverrun := by decide
/-- T8. -/
theorem test_reservedClass00 : code (transfer 0x00 (selected .expectCmd)) = some .reservedCmd := by decide
/-- Section 2.2: 0x7F, before `FIXED_MODE`. -/
theorem test_dsetReservedBit0 : code (transfer 0x7F (selected .expectCmd)) = some .reservedBits := by decide
/-- Section 2.2: 0x50. -/
theorem test_dsetReservedBits54 : code (transfer 0x50 (selected .expectCmd)) = some .reservedBits := by decide
/-- Section 2.2: 0x4C, `FIX` before `TEST`. -/
theorem test_dsetFixedAddress : code (transfer 0x4C (selected .expectCmd)) = some .fixedMode := by decide
/-- C7. -/
theorem test_dsetTestMode : code (transfer 0x48 (selected .expectCmd)) = some .testMode := by decide
/-- C8. -/
theorem test_addrReservedBits54 : code (transfer 0xD3 (selected .expectCmd)) = some .reservedBits := by decide
/-- Section 2.2: 0x90. -/
theorem test_dctrlReservedBits54 : code (transfer 0x90 (selected .expectCmd)) = some .reservedBits := by decide

/-- The word placed for the next step runs: 0x40 and 0xFF, the first instruction after reset. -/
theorem test_fetch_word : goesOn (step (State.reset.withFetchWord 8 0x40)) (fun t => t.rw == .known .write) = true ∧
    goesOn (step (State.reset.withFetchWord 8 0xFF)) (fun t => t.seq == .keyRead 1) = true := by decide

/-! ### Transport and observation -/

/-- T2. -/
theorem test_assert_twice : code (csAssert (selected .expectCmd)) = some .csProtocol := by decide
/-- T3: before any decode. -/
theorem test_xfer_idle : code (transfer 0x40 State.reset) = some .xferIdle := by decide
/-- T4. -/
theorem test_deassert_idle : code (csDeassert State.reset) = some .csProtocol := by decide
/-- T6: a byte after `DSET.W`. -/
theorem test_trailing : code (transfer 0x00 (selected .closed)) = some .trailingByte := by decide
/-- R118: nine bits are no whole bytes. -/
theorem test_partial_byte : code (transcribe (List.replicate 9 true) (selected .expectCmd)) = some .partialByte := by decide
/-- O2. -/
theorem test_lit_unwritten : goesOn (observeLit 0 0 State.reset) (fun t =>
    t.faults == [.unwrittenState] && t.seen == .noValue && t.refused == none) = true := by decide
/-- O4: off is dark, no fault. -/
theorem test_lit_off : goesOn (observeLit 3 5 { State.reset with don := .known false, brt := .known 0 }) (fun t =>
    t.faults == [] && t.seen == .lit false) = true := by decide
/-- O5: `W(1)` = 0x013F; segment 6 dark, segment 8 on. -/
theorem test_lit_grid : gridWord (shadowOf [(2, 0x3F), (3, 0x01)]) 1 = .known 0x013F ∧
    litValue { ready with dm := shadowOf [(2, 0x3F), (3, 0x01)] } 1 6 = .known false ∧
    litValue { ready with dm := shadowOf [(2, 0x3F), (3, 0x01)] } 1 8 = .known true := by decide
/-- O6, O7. -/
theorem test_level : goesOn (observeLevel ready) (fun t => t.seen == .level 3) = true ∧
    goesOn (observeLevel State.reset) (fun t => t.faults == [.unwrittenState]) = true := by decide

/-! ### Driver operations -/

/-- Construction: `[D1]` then `[02]`. -/
theorem test_init : traceOf (runOp (board .typeA) .init State.reset) = some [[0xD1], [0x02]] := by decide
/-- H1, H4. -/
theorem test_display_control :
    traceOf (runOp (board .typeA) (.setBrightness (some 0x0D)) ready) = some [[0xB1]] ∧
    traceOf (runOp (board .typeA) (.setDisplayOn false) { ready with hBrt := 7 }) = some [[0xE1]] := by decide
/-- H8, H9. -/
theorem test_writeByte : traceOf (runOp (board .typeA) (.writeByte 0xAA 16) ready) = some [[0x03, 0x55]] ∧
    traceOf (runOp (board .typeA) (.writeByte 0x12 0x1F) ready) = some [[0xF3, 0x48]] := by decide
/-- H10, H11, H12. -/
theorem test_writeBlock :
    traceOf (runOp (board .typeA) (.writeBlock buf (some 5) (some 13)) ready) = some [[0xB3, 0xB8, 0x78, 0xF8]] ∧
    traceOf (runOp (board .typeA) (.writeBlock buf (some 3) (some 18)) ready) = some [[0x43, 0x48, 0xC8, 0x28]] ∧
    traceOf (runOp (board .typeA) (.writeBlock buf (some 0) (some 4)) ready) = some [[0x23]] := by decide
/-- W6. -/
theorem test_clearScreen :
    traceOf (runOp (board .typeA) .clearScreen ready) = some [0x03 :: List.replicate 16 0x00] := by decide
/-- Section 2.9: the traffic of a scan. -/
theorem test_scanKeys :
    traceOf (runOp (board .typeA) .scanKeys ready) = some [[0x42, 0xFF, 0xFF, 0xFF, 0xFF], [0x02]] := by decide
/-- K1 and P3, S4, S5: the bus bytes the host receives for the chip bytes drawn, and the chip bytes it holds. -/
theorem test_received_bus_bytes :
    let received (l : List Byte) : List Byte × List Byte :=
      ((l.foldl State.reply State.reset).busRx, (l.foldl State.reply State.reset).rx)
    received [0x00, 0x04, 0x88, 0x00] = ([0x00, 0x20, 0x11, 0x00], [0x00, 0x04, 0x88, 0x00]) ∧
    received [0x88, 0x00, 0x00, 0x80] = ([0x11, 0x00, 0x00, 0x01], [0x88, 0x00, 0x00, 0x80]) ∧
    received [0x82, 0x00, 0x00, 0x00] = ([0x41, 0x00, 0x00, 0x00], [0x82, 0x00, 0x00, 0x00]) := by decide
/-- S5, S6: the masked block. -/
theorem test_maskKeys :
    goesOn (hostMaskKeys (board .typeA) { ready with rx := [0x99, 0x82, 0x00, 0x00, 0x00] }) (fun t =>
      t.keys == .block #v[0x02, 0x00, 0x00, 0x00]) = true ∧
    goesOn (hostMaskKeys (board .typeA) { ready with rx := [0x00, 0xFF, 0xFF, 0xFF, 0xFF] }) (fun t =>
      t.keys == .block #v[0x77, 0x77, 0x77, 0x77]) = true := by decide
/-- S1, S2, S3 and S6: the verdicts of both policies. -/
theorem test_verdict :
    keyPressed .strict #v[0, 0, 0, 0] = false ∧ keyPressed .strict #v[0, 1, 0, 0] = true ∧
    keyPressed .strict #v[1, 0x10, 0, 0] = false ∧ keyPressed .permissive #v[1, 0x10, 0, 0] = true ∧
    keyCount #v[0x77, 0x77, 0x77, 0x77] = 24 := by decide

/-! ### Board adapter, Types A and B -/

/-- B1, B2, and R260: a point to the right of a column whose byte is unknown. -/
theorem test_board_unknown_shadow :
    code (runOp (board .typeA) (.putc 0x2E) (withShadow [] 1)) = some .shadowUnknown ∧
    traceOf (runOp (board .typeA) (.putc 0x2E) ready) = some [] ∧
    code (runOp (board .typeA) (.setIcon 0x0100) ready) = some .shadowUnknown := by decide
/-- B4, then B5. -/
theorem test_board_putc :
    traceOf (runOp (board .typeA) (.putc 0x31) (withShadow zeroMemory 0)) = some [[0x03, 0x60, 0x00]] ∧
    traceOf (runOp (board .typeA) (.putc 0x2E) (withShadow (shadowOf [(0, 0x06)]) 1)) = some [[0x03, 0x61]] := by decide
/-- B6, B9. -/
theorem test_board_icons :
    traceOf (runOp (board .typeA) (.setIcon 0x0100) (withShadow (shadowOf [(0, 0x86)]) 1)) = some [[0x03, 0x61, 0x80]] ∧
    traceOf (runOp (board .typeA) (.clrIcon 0x0100) (withShadow (shadowOf [(1, 0x01), (2, 0x7F)]) 2)) =
      some [[0x03, 0x00, 0x00]] := by decide
/-- B8: the icon is kept, the decimal point is not. -/
theorem test_board_writeCell :
    traceOf (runOp (board .typeA) (.writeCell 0 0x20) (withShadow (shadowOf [(0, 0x86), (1, 0x01), (2, 0x7F)]) 2)) =
      some [[0x03, 0x00, 0x80]] := by decide
/-- B12. -/
theorem test_board_icon_grid :
    code (runOp (board .typeA) (.setIcon 0x80000) (withShadow zeroMemory 1)) = some .iconGrid := by decide
/-- B13: the column is clamped to 7, and the cursor wraps. -/
theorem test_board_locate :
    goesOn (runOp (board .typeA) (.locate 20) (withShadow zeroMemory 0)) (fun t => t.col == 7) = true ∧
    traceOf (runOp (board .typeA) (.putc 0x41) (withShadow zeroMemory 7)) = some [[0x73, 0xEE, 0x00]] ∧
    goesOn (boardCursorNext (board .typeA) (withShadow zeroMemory 7)) (fun t => t.col == 0) = true := by decide
/-- B15, B16. -/
theorem test_board_typeB :
    traceOf (runOp (board .typeB) (.writeCell 3 0x31) (withShadow zeroMemory 0)) =
      some [[0x03, 0x00, 0x00, 0x10, 0x00, 0x10, 0x00, 0x00, 0x00, 0x00, 0x00, 0x00, 0x00, 0x00]] ∧
    traceOf (runOp (board .typeB) (.putc 0x32) (withShadow (shadowOf [(2, 0x08), (4, 0x08)]) 0)) =
      some [[0x03, 0x80, 0x00, 0x90, 0x00, 0x10, 0x00, 0x80, 0x00, 0x80, 0x00, 0x00, 0x00, 0x80]] := by decide
/-- B17, then B20. -/
theorem test_board_typeB_point :
    traceOf (runOp (board .typeB) (.putc 0x2E) (withShadow zeroMemory 1)) = some [[0x73, 0x80]] ∧
    traceOf (runOp (board .typeB) (.writeCell 3 0x20)
        (withShadow (shadowOf [(0, 0x09), (2, 0x09), (4, 0x08), (6, 0x09), (8, 0x09), (10, 0x08), (12, 0x09)]) 1)) =
      some [[0x03, 0x80, 0x00, 0x80, 0x00, 0x00, 0x00, 0x80, 0x00, 0x80, 0x00, 0x00, 0x00, 0x80]] := by decide

/-! ### Witnesses: for each statement with hypotheses, a state and operands that meet them together -/

/-- A state that meets the invariant: the host in write mode. -/
theorem ready_inv : MachineInv ready where
  dm := rfl
  shadow := rfl
  idle := by decide
  pointer := by decide
  modes := .known _ .write rfl rfl rfl
  keyMode := by decide
  display := by decide
  column := by simp [ready, State.reset, Params.numCols]
  rxStart := by decide
  rxKeys := by decide
  received := rfl
  faults := by decide

theorem test_witness_DecodeOfEncodeIsTheInstruction :
    ((Instr.dsetReservedBits54 1 0).WellFormed ∧ accepts .expectCmd (.dsetReservedBits54 1 0) = true) ∧
    ((Instr.data 0xFF).WellFormed ∧ accepts .addrData (.data 0xFF) = true) ∧
    (Instr.rdkey.WellFormed ∧ accepts (.keyRead 4) .rdkey = true) := by decide
theorem test_witness_DecodedByteEncodesBack : decode .expectCmd 0xFF = .ok (.addrReservedBits54 3 15) := by decide
theorem test_witness_CommandDecodeFollowsThePseudocode :
    [0x40, 0x42, 0x80, 0x8F, 0xC0, 0xCF].map refusalByArithmetic = List.replicate 6 none := by decide
theorem test_witness_StepRunsTheDecodedInstruction :
    let s : State := doing (selected (.keyRead 0)) [.busXfer 0xFF]
    s.refused = none ∧ s.input = .busXfer 0xFF :: [] ∧ exchanged (.busXfer 0xFF) = some 0xFF ∧ s.cs = .asserted ∧
      decode s.seq 0xFF = .ok .rdkey := by decide
theorem test_witness_PlacedWordRunsNext : State.reset.refused = none ∧ decodeTableWord 8 0xC0 = some (.addr 0) := by
  decide
theorem test_witness_ChipSelectAssertion : State.reset.cs = .deasserted ∧ (selected .closed).cs = .asserted := by decide
theorem test_witness_ChipSelectDeassertion : (selected (.keyRead 2)).cs = .asserted ∧ State.reset.cs = .deasserted := by
  decide
theorem test_witness_ExchangeDispatchesOnSequencer :
    State.reset.cs = .deasserted ∧ (selected .expectCmd).cs = .asserted ∧ (selected .expectCmd).seq = .expectCmd ∧
    (selected .addrData).seq = .addrData ∧ (selected (.keyRead 4)).seq = .keyRead 4 ∧ (selected .closed).seq = .closed ∧
    ∃ t, transfer 0x40 (selected .expectCmd) = .next t := ⟨rfl, rfl, rfl, rfl, rfl, rfl, _, rfl⟩
theorem test_witness_TranscriberTakesWholeBytes : [true].length % 8 ≠ 0 := by decide
theorem test_witness_RefusalOrder :
    State.reset.cs = .deasserted ∧ (selected .closed).cs = .asserted ∧ (selected .closed).seq = .closed ∧
    (selected (.keyRead 4)).seq = .keyRead 4 ∧ (selected (.keyRead 3)).seq = .keyRead 3 ∧ (3 : Fin 5) ≠ 4 ∧
    (0x00 : Byte) ≠ 0xFF ∧ (selected .addrData).rw = .bot ∧ (writing .read 16).rw ≠ .bot ∧
    (writing .read 16).ptr = .known 16 ∧ (writing .read 16).seq = .addrData ∧
    refusalByArithmetic (0x7F : Byte).toNat = some .reservedBits ∧ 0x80000 / 2 ^ 16 ≥ 8 ∧ 0x7FFFF / 2 ^ 16 < 8 ∧
    gridWord ready.shadow 7 = .bot := by decide
theorem test_witness_WriteModeCommand :
    goesOn (exec .dsetW (selected .expectCmd)) (fun t => t.cs == .asserted) = true := by decide
theorem test_witness_ReadModeCommand :
    goesOn (exec .dsetR (selected .expectCmd)) (fun t => t.cs == .asserted) = true ∧ (writing .read 15).rw = .known .read ∧
    goesOn (exec (.data 1) (writing .read 15)) (fun _ => true) = true ∧ (selected (.keyRead 4)).cs = .asserted ∧
    (selected (.keyRead 4)).seq = .keyRead 4 := by decide
theorem test_witness_AddressCommand :
    (selected .expectCmd).rw = .bot ∧ (writing .write 16).rw ≠ .bot ∧ (writing .write 16).ptr = .known 16 := by decide
theorem test_witness_DisplayControlCommand :
    goesOn (exec (.dctrl true 7) (selected .expectCmd)) (fun t => t.cs == .asserted) = true := by decide
theorem test_witness_RefusedCommandBytes :
    (selected .expectCmd).cs = .asserted ∧ (selected .expectCmd).seq = .expectCmd ∧ (0x3F : Byte).toNat < 0x40 ∧
    (0x4F : Byte) ∈ ([0x41, 0x43, 0x45, 0x47, 0x49, 0x4B, 0x4D, 0x4F] : List Byte) ∧
    (0x50 ≤ (0x50 : Byte).toNat ∧ (0x7F : Byte).toNat ≤ 0x7F) ∧ (0x4E : Byte) ∈ ([0x44, 0x46, 0x4C, 0x4E] : List Byte) ∧
    (0x4A : Byte) ∈ ([0x48, 0x4A] : List Byte) ∧ 0xD0 ≤ (0xD0 : Byte).toNat ∧
    (0x90 ≤ (0x90 : Byte).toNat ∧ (0xBF : Byte).toNat ≤ 0xBF) := by decide
theorem test_witness_DataByteWritesDisplayMemory :
    ((writing .write 15).rw = .known .write ∧ (writing .write 15).ptr = .known (15 : Fin 16).castSucc) ∧
    ((writing .write 0).rw = .known .write ∧ (writing .write 0).ptr = .known (0 : Fin 16).castSucc) ∧
    ((writing .read 15).rw = .known .read ∧ (writing .read 15).ptr = .known (15 : Fin 16).castSucc) ∧
    State.reset.rw = .bot ∧ ((writing .write 16).rw = .known .write ∧ (writing .write 16).ptr = .known 16) := by decide
theorem test_witness_DataBytesDiscardedInReadMode :
    let s : State := doing (writing .read 15) [.xfer 1]
    let u : State := doing (writing .read 16) [.xfer 1]
    (s.refused = none ∧ s.cs = .asserted ∧ s.seq = .addrData ∧ s.rw = .known .read ∧
      (∀ p : Fin 17, p.val = 15 → s.ptr = .known p) ∧ s.input = [1].map .xfer ++ [] ∧ 15 + [(1 : Byte)].length ≤ 16) ∧
    (u.refused = none ∧ u.cs = .asserted ∧ u.seq = .addrData ∧ u.rw = .known .read ∧
      (∀ p : Fin 17, p.val = 16 → u.ptr = .known p) ∧ u.input = [1].map .xfer ++ [] ∧ 16 ≤ 16 ∧
      16 < 16 + [(1 : Byte)].length) := by decide
theorem test_witness_ModeUnknownBeforeDataSetting :
    State.reset.rw = .bot ∧ MachineInv ready ∧ ready.rw = .known .write := ⟨rfl, ready_inv, rfl⟩
theorem test_witness_CanonicalMemoriesAreDeterminedByReads :
    Memory.wf (memWrite (memWrite [] 3 7) 1 5) = true ∧ Memory.wf (memWrite (memWrite [] 1 5) 3 7) = true ∧
    ∀ a : Fin 16, memRead (memWrite (memWrite [] 3 7) 1 5) a.val = memRead (memWrite (memWrite [] 1 5) 3 7) a.val := by
  decide
theorem test_witness_GridWordOfTwoBytes :
    (memRead zeroMemory (2 * 7) = .known 0 ∧ memRead zeroMemory (2 * 7 + 1) = .known 0) ∧
    memRead (memWrite [] 0 1) (2 * 0 + 1) = .bot ∧
    ({ ready with dm := zeroMemory }.don = .known true ∧ gridWord zeroMemory 7 = .known 0) := by decide
theorem test_witness_DisplayObservation :
    State.reset.don = .bot ∧ { ready with don := .known false }.don = .known false ∧
    (ready.don = .known true ∧ memRead ready.dm (2 * 7 + 15 / 8) = .bot) ∧
    memRead { ready with dm := zeroMemory }.dm (2 * 7 + 15 / 8) = .known 0 ∧ State.reset.brt = .bot ∧
    ready.brt = .known 3 := by decide
theorem test_witness_DisplayOffKeepsMemory :
    (writing .write 15).rw = .known .write ∧ (writing .write 15).ptr = .known (15 : Fin 16).castSucc ∧
    memRead { ready with dm := zeroMemory }.dm (2 * 7 + 15 / 8) = .known 0 := by decide
theorem test_witness_BlockWriteTransaction :
    let s : State := doing ready (blockEvents 15 [1] ++ [])
    let u : State := doing ready (blockEvents 15 [1, 2] ++ [])
    (s.refused = none ∧ s.cs = .deasserted ∧ s.rw = .known .write ∧ s.input = blockEvents 15 [1] ++ [] ∧
      1 ≤ [(1 : Byte)].length ∧ (15 : BitVec 4).toNat + 1 ≤ 16 ∧ (15 : BitVec 4).toNat + [(1 : Byte)].length ≤ 16) ∧
    (u.refused = none ∧ u.cs = .deasserted ∧ u.rw = .known .write ∧ u.input = blockEvents 15 [1, 2] ++ [] ∧
      16 < (15 : BitVec 4).toNat + [(1 : Byte), 2].length) := by decide
theorem test_witness_ReadModeLosesABlockWrite :
    let s : State := doing { ready with rw := .known .read } (blockEvents 15 [1] ++ [])
    s.refused = none ∧ s.cs = .deasserted ∧ s.rw = .known .read ∧ s.input = blockEvents 15 [1] ++ [] ∧
      (15 : BitVec 4).toNat + [(1 : Byte)].length ≤ 16 := by decide
theorem test_witness_ReadByteReturnsKeyMemory :
    (selected (.keyRead 3)).seq = .keyRead (3 : Fin 4).castSucc ∧ (selected (.keyRead 4)).seq = .keyRead 4 ∧
    (selected (.keyRead 4)).cs = .asserted ∧ (0xFE : Byte) ≠ 0xFF := by decide
theorem test_witness_ReadTransactionReturnsFourBytes :
    let s : State := doing ready (xact [0x42, 0xFF, 0xFF, 0xFF, 0xFF] ++ [])
    s.refused = none ∧ s.cs = .deasserted ∧ s.input = xact [0x42, 0xFF, 0xFF, 0xFF, 0xFF] ++ [] := by decide
theorem test_witness_ScanKeysOperation :
    let s : State := doing ready [.op .scanKeys]
    s.refused = none ∧ s.cs = .deasserted ∧ s.input = .op .scanKeys :: [] := by decide
theorem test_witness_KeypressVerdict :
    ∀ (i : Fin 4) (j : Fin 8), (0x77 : Byte).getLsbD j.val = true →
      (#v[0x88, 0x01, 0, 0x80] : Vector Byte 4)[i.val].getLsbD j.val =
        (#v[0, 0x89, 0, 0] : Vector Byte 4)[i.val].getLsbD j.val := by decide
theorem test_witness_EveryStepKeepsTheInvariant : MachineInv ready ∧ step ready = .next ready := ⟨ready_inv, rfl⟩
theorem test_witness_RefusalsAndFaultsAreSticky :
    (∃ s : State, s.refused = some .xferIdle) ∧ (∃ s t, step s = .refused (.event .xferIdle t)) ∧
    ∃ s t, step s = .next t ∧ FaultCode.unwrittenState ∈ s.faults :=
  ⟨⟨{ State.reset with refused := some .xferIdle }, rfl⟩, ⟨doing State.reset [.xfer 0x40], _, rfl⟩,
    { State.reset with faults := [.unwrittenState] }, _, rfl, by decide⟩
theorem test_witness_RefusalChangesOnlyTheMark : ∃ s t, step s = .refused (.event .xferIdle t) :=
  ⟨doing State.reset [.xfer 0x40], _, rfl⟩
theorem test_witness_DisplayMemoryWrittenByDataBytesOnly : ∃ s t, step s = .next t ∧ t.dm ≠ s.dm :=
  ⟨doing (writing .write 15) [.xfer 0], _, rfl, by decide⟩
theorem test_witness_ModesWrittenByDataSettingOnly : ∃ s t, step s = .next t ∧ t.rw ≠ s.rw ∧ t.ainc ≠ s.ainc ∧ t.test ≠ s.test :=
  ⟨doing (selected .expectCmd) [.xfer 0x42], _, rfl, by decide⟩
theorem test_witness_DisplayLatchAndChipSelectWriters :
    (∃ s t, step s = .next t ∧ t.don ≠ s.don ∧ t.brt ≠ s.brt) ∧ ∃ s t, step s = .next t ∧ t.cs ≠ s.cs :=
  ⟨⟨doing (selected .expectCmd) [.xfer 0x80], _, rfl, by decide⟩, doing ready [.csAssert], _, rfl, by decide⟩
theorem test_witness_ReturnedBytesNeverReachTheChip :
    ∃ s t, [(9 : Byte)].length = s.rx.length ∧ [(7 : Byte)].length = s.busRx.length ∧ step s = .next t :=
  ⟨{ doing (selected (.keyRead 0)) [.xfer 0xFF] with rx := [0], busRx := [0] }, _, rfl, rfl, rfl⟩
theorem test_witness_InitOperation :
    let s : State := doing State.reset [.op .init]
    s.refused = none ∧ s.cs = .deasserted ∧ s.input = .op .init :: [] := by decide
theorem test_witness_DisplayControlOperations :
    ready.refused = none ∧ ready.cs = .deasserted ∧
    (doing ready [.op (.setBrightness (some 0xFF))]).input = .op (.setBrightness (some 0xFF)) :: [] ∧
    (doing ready [.op (.setBrightness none)]).input = .op (.setBrightness none) :: [] ∧
    (doing ready [.op (.setDisplayOn false)]).input = .op (.setDisplayOn false) :: [] := by decide
theorem test_witness_BlockOperations :
    ready.refused = none ∧ ready.cs = .deasserted ∧ ready.rw = .known .write ∧
    { ready with rw := .known .read }.rw = .known .read ∧
    (doing ready [.op (.writeByte 1 31)]).input = .op (.writeByte 1 31) :: [] ∧
    (doing ready [.op (.writeBlock buf (some 100) (some 15))]).input = .op (.writeBlock buf (some 100) (some 15)) :: [] := by
  decide
theorem test_witness_ClearScreenOperation :
    let s : State := doing ready [.op .clearScreen]
    s.refused = none ∧ s.cs = .deasserted ∧ s.rw = .known .write ∧ s.input = .op .clearScreen :: [] := by decide
theorem test_witness_BusTracesOfDriverOperations : ready.input = [] := by decide
theorem test_witness_DriverOperationsAreAdmitted :
    (isDriverOp .scanKeys = true ∧ ready.refused = none ∧ ready.cs = .deasserted ∧ ready.rw ≠ .bot ∧
      (doing ready [.op .scanKeys]).input = .op .scanKeys :: []) ∧
    (State.reset.refused = none ∧ State.reset.cs = .deasserted ∧ State.reset.rw = .bot ∧
      (doing State.reset [.op (.writeByte 1 31)]).input = .op (.writeByte 1 31) :: [] ∧
      (doing State.reset [.op .clearScreen]).input = .op .clearScreen :: [] ∧
      ((none : Option Nat) ≠ some 0 ∧
        (doing State.reset [.op (.writeBlock buf none none)]).input = .op (.writeBlock buf none none) :: []) ∧
      ((some 1 : Option Nat) ≠ some 0 ∧
        (doing State.reset [.op (.writeBlock buf (some 1) (some 15))]).input =
          .op (.writeBlock buf (some 1) (some 15)) :: [])) := by decide
theorem test_witness_PutcControlCharacters :
    ready.col = 0 ∧ (withShadow zeroMemory 8).col ≠ 0 ∧
    (∃ sh a, setPoint (board .typeA) 7 zeroMemory = some (sh, a) ∧ (flushEvents sh a).isSome = true) ∧
    setPoint (board .typeA) 7 [] = none ∧ ((0x7F : Byte) ≠ 0x0A ∧ (0x7F : Byte) ≠ 0x0D ∧ 0x7F ≤ (0x7F : Byte).toNat) ∧
    ((0x1F : Byte) ≠ 0x0A ∧ (0x1F : Byte) ≠ 0x0D ∧ (0x1F : Byte).toNat < 0x20) :=
  ⟨by decide, by decide, ⟨_, _, rfl, by decide⟩, rfl, by decide, by decide⟩
theorem test_witness_PutcPrintableCharacters :
    (0x20 ≤ (0x20 : Byte).toNat ∧ (0x7E : Byte).toNat ≤ 0x7E ∧ (0x7E : Byte) ≠ 0x2E ∧ (0x20 : Byte) ≠ 0x2C) ∧
    (∃ sh a, writeChar (board .typeB) 7 0x7E zeroMemory = some (sh, a) ∧ (flushEvents sh a).isSome = true) ∧
    writeChar (board .typeB) 7 0x7E [] = none ∧
    (∃ sh a, writeChar (board .typeB) 7 0x7E ((List.range 8).map fun a => (2 * a, 0)) = some (sh, a) ∧
      flushEvents sh a = none) ∧
    (withShadow zeroMemory 7).col < (board .typeB).numCols :=
  ⟨by decide, ⟨_, _, rfl, by decide⟩, rfl, ⟨_, _, rfl, by rfl⟩, by decide⟩
theorem test_witness_GridCharacterKeepsIcons :
    (board .typeA).layout ≠ .typeB ∧ (board .typeC).layout ≠ .typeB ∧ gridWord zeroMemory ((board .typeA).colGrid 7) = .known 0 ∧
    gridWord [] ((board .typeA).colGrid 7) = .bot ∧ 7 < (board .typeA).numCols := by decide
theorem test_witness_GridDecimalPoint :
    (board .typeC).layout ≠ .typeB ∧ memRead zeroMemory (2 * ((board .typeC).colGrid 7).val) = .known 0 ∧
    (memRead [] (2 * ((board .typeC).colGrid 7).val) = .bot ∧ (withShadow [] 8).shadow = [] ∧
      (withShadow [] 8).col = 7 + 1) := by decide
theorem test_witness_SegmentCharacterAssignsOneBitPerByte :
    (board .typeB).layout = .typeB ∧ (board .typeB).TypeBDistinct ∧
    (∀ i : Fin 7, memRead zeroMemory ((board .typeB).segAddr i).val ≠ .bot) ∧
    memRead [] ((board .typeB).segAddr 6).val = .bot ∧ 7 < (board .typeB).numCols := by decide
theorem test_witness_SegmentDecimalPoint :
    (board .typeB).layout = .typeB ∧ memRead zeroMemory (board .typeB).dpAddr.val = .known 0 ∧
    (memRead [] (board .typeB).dpAddr.val = .bot ∧ (withShadow [] 1).shadow = [] ∧ (withShadow [] 1).col = 0 + 1) := by
  decide
theorem test_witness_IconsPreserveUnrelatedBits :
    0x7FFFF / 2 ^ 16 < 8 ∧ gridWord (withShadow zeroMemory 0).shadow 7 = .known 0 := by decide
theorem test_witness_FlushCoversTheSmallestRange :
    ((0 : Fin 16) ∈ [15, 0] ∧ (15 : Fin 16) ∈ [15, 0] ∧ (∀ a ∈ ([15, 0] : List (Fin 16)), 0 ≤ a ∧ a ≤ 15)) ∧
    (∀ a : Fin 16, 0 ≤ a → a ≤ 15 → memRead zeroMemory a.val ≠ .bot) ∧
    (∃ a : Fin 16, 0 ≤ a ∧ a ≤ 15 ∧ memRead [] a.val = .bot) := by decide
theorem test_witness_LocateWriteCellAndGlyph :
    7 < (board .typeA).numCols ∧ (board .typeA).numCols ≤ 8 ∧ 7 + 1 = (board .typeA).numCols ∧
    ∃ sh a, writeChar (board .typeA) 7 0x20 zeroMemory = some (sh, a) ∧ (flushEvents sh a).isSome = true :=
  ⟨by decide, by decide, by decide, _, _, rfl, by decide⟩
theorem test_witness_ClearAllOperation :
    let s : State := doing ready [.op .clearAll]
    s.refused = none ∧ s.cs = .deasserted ∧ s.rw = .known .write ∧ s.input = .op .clearAll :: [] := by decide
theorem test_witness_BoardParametersAreAllowed : 0 < Config.params.numCols := by simp [Params.numCols]
theorem test_witness_BoardKeepsDisplayAndShadowAlike :
    let s : State := { doing ready [.op (.setIcon 0x7FFFF)] with dm := zeroMemory, shadow := zeroMemory }
    isDriverOp (.setIcon 0x7FFFF) = false ∧ s.refused = none ∧ s.cs = .deasserted ∧ s.rw = .known .write ∧
      s.input = [.op (.setIcon 0x7FFFF)] ∧ (∀ a : Fin 16, memRead s.dm a.val = memRead s.shadow a.val) ∧
      goesOn (step s) (fun _ => true) = true := by decide

end Sys2Proof.Tests
end

section
/-!
PROOFS of the scope family: the bits of a byte on the serial line, bit reversal, and the transcriber.
-/

namespace Sys2Proof.Machine

/-! ### A byte and its eight bits -/

/-- Bits 0 to 7 of a byte are the entries of its list of line bits (R11, R53). -/
theorem lineBits_getElem (b : Byte) (i : Nat) (hi : i < 8) : (lineBits b)[i]'hi = b.getLsbD i := by
  interval_cases i <;> rfl

/-- Two bytes with the same line bits are one byte. -/
theorem lineBits_injective : Function.Injective lineBits := by
  intro a b h
  refine BitVec.eq_of_getLsbD_eq fun i hi => ?_
  rw [← lineBits_getElem a i hi, ← lineBits_getElem b i hi]
  exact List.getElem_of_eq h hi

/-- Eight bits read into a byte from bit 0 up are that byte's line bits. -/
@[simp] theorem lineBits_chipByteOfLine (b0 b1 b2 b3 b4 b5 b6 b7 : Bool) :
    lineBits (chipByteOfLine b0 b1 b2 b3 b4 b5 b6 b7) = [b0, b1, b2, b3, b4, b5, b6, b7] := by
  simp [lineBits, chipByteOfLine, BitVec.ofBoolListLE]

/-- A byte read back from its own line bits. -/
@[simp] theorem chipByteOfLine_getLsbD (b : Byte) :
    chipByteOfLine (b.getLsbD 0) (b.getLsbD 1) (b.getLsbD 2) (b.getLsbD 3) (b.getLsbD 4) (b.getLsbD 5) (b.getLsbD 6)
      (b.getLsbD 7) = b :=
  lineBits_injective (lineBits_chipByteOfLine ..)

/-! ### Bit reversal -/

/-- Bit reversal reverses the order of the bits on the line (R10). -/
@[simp] theorem lineBits_flipByte (b : Byte) : lineBits (flipByte b) = (lineBits b).reverse :=
  lineBits_chipByteOfLine ..

theorem flipByte_getLsbD (b : Byte) (i : Nat) (hi : i < 8) : (flipByte b).getLsbD i = b.getLsbD (7 - i) := by
  rw [← lineBits_getElem _ i hi, ← lineBits_getElem b (7 - i) (by omega)]
  simp only [lineBits_flipByte]
  exact List.getElem_reverse _

theorem popcount_flipByte (b : Byte) : popcount (flipByte b) = popcount b := by
  rw [popcount, lineBits_flipByte, List.count_reverse, popcount]

theorem flipByte_or (a b : Byte) : flipByte (a ||| b) = flipByte a ||| flipByte b := by
  refine BitVec.eq_of_getLsbD_eq fun i hi => ?_
  simp only [BitVec.getLsbD_or, flipByte_getLsbD _ i hi]

theorem flipByte_and (a b : Byte) : flipByte (a &&& b) = flipByte a &&& flipByte b := by
  refine BitVec.eq_of_getLsbD_eq fun i hi => ?_
  simp only [BitVec.getLsbD_and, flipByte_getLsbD _ i hi]

/-- A line's bits read from bit 7 down are the flip of the byte read from bit 0 up (R11). -/
theorem busByteOfLine_eq_flipByte (b0 b1 b2 b3 b4 b5 b6 b7 : Bool) :
    busByteOfLine b0 b1 b2 b3 b4 b5 b6 b7 = flipByte (chipByteOfLine b0 b1 b2 b3 b4 b5 b6 b7) := by
  apply lineBits_injective
  rw [lineBits_flipByte, lineBits_chipByteOfLine]
  simp [lineBits, busByteOfLine, BitVec.ofBoolListBE, BitVec.getElem_cons]

/-- Settles O6: every law is the order of the bits on the line, reversed. -/
theorem flipReversesTheBits : Obligations.FlipReversesTheBits := by
  refine ⟨fun b0 b1 b2 b3 b4 b5 b6 b7 => ⟨?_, ?_⟩, flipByte_getLsbD, fun b => ⟨?_, ?_⟩, fun a b => ⟨?_, ?_⟩, ?_⟩
  · exact lineBits_chipByteOfLine ..
  · exact busByteOfLine_eq_flipByte ..
  · exact flipByte_flipByte b
  · exact popcount_flipByte b
  · exact flipByte_or a b
  · exact flipByte_and a b
  · decide

/-! ### The transcriber -/

/-- The first eight bits of a trace, where they are a byte's line bits, are that byte (R11, R53). -/
theorem wholeBytes_lineBits_append (b : Byte) (l : List Bool) :
    wholeBytes (lineBits b ++ l) = (wholeBytes l).map (b :: ·) := by
  simp only [lineBits, List.cons_append, List.nil_append, wholeBytes, chipByteOfLine_getLsbD]

theorem wholeBytes_flatMap_lineBits (bs : List Byte) : wholeBytes (bs.flatMap lineBits) = some bs := by
  induction bs with
  | nil => rfl
  | cons b bs ih => rw [List.flatMap_cons, wholeBytes_lineBits_append, ih, Option.map_some]

/-- A trace read as whole bytes is those bytes' line bits, so it holds eight bits a byte. -/
theorem flatMap_lineBits_of_wholeBytes (l : List Bool) (bs : List Byte) (h : wholeBytes l = some bs) :
    bs.flatMap lineBits = l := by
  induction l using wholeBytes.induct generalizing bs with
  | case1 => cases h; rfl
  | case2 b0 b1 b2 b3 b4 b5 b6 b7 rest ih =>
    obtain ⟨bs', hrest, rfl⟩ := Option.map_eq_some_iff.mp h
    rw [List.flatMap_cons, ih bs' hrest, lineBits_chipByteOfLine]
    rfl
  | case3 l hnil hcons => simp [wholeBytes] at h

theorem length_flatMap_lineBits (bs : List Byte) : (bs.flatMap lineBits).length = 8 * bs.length := by
  induction bs with
  | nil => rfl
  | cons b bs ih =>
    rw [List.flatMap_cons, List.length_append, ih, List.length_cons]
    simp only [lineBits, List.length_cons, List.length_nil]
    omega

theorem wholeBytes_eq_none_of_length (l : List Bool) (h : l.length % 8 ≠ 0) : wholeBytes l = none := by
  refine Option.eq_none_iff_forall_ne_some.mpr fun bs hbs => h ?_
  rw [← flatMap_lineBits_of_wholeBytes l bs hbs, length_flatMap_lineBits, Nat.mul_mod_right]

theorem transcribe_of_wholeBytes (l : List Bool) (bs : List Byte) (s : State) (h : wholeBytes l = some bs) :
    transcribe l s = .next (s.issue (bs.map .xfer)) := by
  rw [transcribe, h]

theorem transcribe_of_not_wholeBytes (l : List Bool) (s : State) (h : wholeBytes l = none) :
    transcribe l s = refuse .partialByte s := by
  rw [transcribe, h]

/-- Settles O12: bytes are read back from their line bits by induction on the list of bytes; bits that read as bytes
come to eight a byte, so any other count reads as none. -/
theorem transcriberTakesWholeBytes : Obligations.TranscriberTakesWholeBytes := by
  refine fun s => ⟨fun bs => ?_, fun l hl => ?_⟩
  · exact transcribe_of_wholeBytes _ bs s (wholeBytes_flatMap_lineBits bs)
  · exact transcribe_of_not_wholeBytes l s (wholeBytes_eq_none_of_length l hl)

end Sys2Proof.Machine
end

section
/-!
PROOFS of the state family: what an instruction and a step that complete can do, the canonical memories, the writers of
the chip's fields, and the machine invariant.
-/

namespace Sys2Proof.Machine

/-! ### Canonical memories -/

/-- An address below every one listed is not listed. -/
theorem memRead_of_lt (m : Memory) (a : Nat) (h : ∀ c ∈ m, a < c.1) : memRead m a = .bot := by
  induction m with
  | nil => rfl
  | cons c m ih =>
    obtain ⟨hc, hm⟩ := List.forall_mem_cons.1 h
    rw [memRead, if_neg hc.ne, ih hm]

/-- A canonical file holds no address above 15 (R51). -/
theorem memRead_of_ge (m : Memory) (a : Nat) (hm : m.wf = true) (ha : 16 ≤ a) : memRead m a = .bot := by
  induction m with
  | nil => rfl
  | cons c m ih =>
    obtain ⟨hc, hm', -⟩ := (wf_cons ..).1 hm
    rw [memRead, if_neg (by omega), ih hm']

/-- The read at the head's address. -/
@[simp] theorem memRead_cons_self (a : Nat) (v : Byte) (m : Memory) : memRead ((a, v) :: m) a = .known v := by
  simp [memRead]

/-- Where two canonical files read alike, neither begins below the other. -/
theorem head_le_of_reads_alike (a b : Nat) (v w : Byte) (m n : Memory) (hn : Memory.wf ((b, w) :: n) = true)
    (h : ∀ x, memRead ((a, v) :: m) x = memRead ((b, w) :: n) x) : b ≤ a := by
  obtain ⟨-, -, hlt⟩ := (wf_cons ..).1 hn
  by_contra hab
  have hbot : memRead ((b, w) :: n) a = .bot :=
    memRead_of_lt _ a (List.forall_mem_cons.2 ⟨by omega, fun c hc => by have := hlt c hc; omega⟩)
  have := h a
  rw [memRead_cons_self, hbot] at this
  cases this

/-- Two canonical files with one head that read alike have tails that read alike. -/
theorem tails_read_alike (a : Nat) (v : Byte) (m n : Memory) (hm : ∀ c ∈ m, a < c.1) (hn : ∀ c ∈ n, a < c.1)
    (h : ∀ x, memRead ((a, v) :: m) x = memRead ((a, v) :: n) x) (x : Nat) : memRead m x = memRead n x := by
  by_cases hx : x = a
  · rw [hx, memRead_of_lt m a hm, memRead_of_lt n a hn]
  · simpa [memRead, hx] using h x

theorem eq_of_reads_alike (m n : Memory) (hm : m.wf = true) (hn : n.wf = true) (h : ∀ a, memRead m a = memRead n a) :
    m = n := by
  induction m generalizing n with
  | nil =>
    cases n with
    | nil => rfl
    | cons c n => simpa [memRead] using h c.1
  | cons c m ih =>
    obtain ⟨a, v⟩ := c
    cases n with
    | nil => simpa using h a
    | cons d n =>
      obtain ⟨b, w⟩ := d
      obtain rfl : a = b := le_antisymm (head_le_of_reads_alike _ _ _ _ _ _ hm fun x => (h x).symm)
        (head_le_of_reads_alike _ _ _ _ _ _ hn h)
      obtain rfl : v = w := by simpa using h a
      obtain ⟨-, hm', hltm⟩ := (wf_cons ..).1 hm
      obtain ⟨-, hn', hltn⟩ := (wf_cons ..).1 hn
      rw [ih n hm' hn' (tails_read_alike a v m n hltm hltn h)]

/-- Settles O24: the heads agree, since neither file begins below the other, and so on by induction on the file. -/
theorem canonicalMemoriesAreDeterminedByReads : Obligations.CanonicalMemoriesAreDeterminedByReads := by
  refine fun m n hm hn h => eq_of_reads_alike m n hm hn fun a => ?_
  by_cases ha : a < 16
  · exact h ⟨a, ha⟩
  · rw [memRead_of_ge m a hm (by omega), memRead_of_ge n a hn (by omega)]

/-! ### What an instruction that completes does -/

/-- The six rows that complete, each with the state it ends in; the seven refused rows have none (R140, R281). -/
inductive ExecEffect (s : State) : Instr → State → Prop where
  | dsetW : ExecEffect s .dsetW (((s.setModes .write).setSeq .closed).reply (lineDraw s))
  | dsetR : ExecEffect s .dsetR (((s.setModes .read).setSeq (.keyRead 0)).reply (lineDraw s))
  | addr (a : BitVec 4) : ExecEffect s (.addr a) (((s.setPtr (ptrOf a)).setSeq .addrData).reply (lineDraw s))
  | dctrl (n : Bool) (b : BitVec 3) :
    ExecEffect s (.dctrl n b) (((s.setDisplay n b).setSeq .closed).reply (lineDraw s))
  | data (d : Byte) (m : RwMode) (a : Fin 16) (hrw : s.rw = .known m) (hptr : s.ptr = .known a.castSucc) :
    ExecEffect s (.data d) (((s.takeData m a d).setPtr (ptrAfter a)).reply (lineDraw s))
  | rdkey (k : Fin 4) (hseq : s.seq = .keyRead k.castSucc) :
    ExecEffect s .rdkey ((s.setSeq (nextRead k)).reply (keyDraw s k))

theorem exec_effect (i : Instr) (s t : State) (h : exec i s = .next t) : ExecEffect s i t := by
  cases i with
  | dsetW => cases h; exact .dsetW
  | dsetR => cases h; exact .dsetR
  | addr a => cases h; exact .addr a
  | dctrl n b => cases h; exact .dctrl n b
  | data d =>
    obtain ⟨m, a, hrw, hptr, rfl⟩ := execData_next d s t h
    exact .data d m a hrw hptr
  | rdkey =>
    obtain ⟨k, hseq, rfl⟩ := execRdkey_next s t h
    exact .rdkey k hseq
  | reservedClass00 x => exact absurd h (refuse_ne_next _ _ _)
  | dsetReservedBit0 x => exact absurd h (refuse_ne_next _ _ _)
  | dsetReservedBits54 r x => exact absurd h (refuse_ne_next _ _ _)
  | dsetFixedAddress u r => exact absurd h (refuse_ne_next _ _ _)
  | dsetTestMode r => exact absurd h (refuse_ne_next _ _ _)
  | addrReservedBits54 r a => exact absurd h (refuse_ne_next _ _ _)
  | dctrlReservedBits54 r n b => exact absurd h (refuse_ne_next _ _ _)

/-- Display memory is written by a data byte in write mode only, at the pointer (R161). -/
theorem execEffect_dm_ne (i : Instr) (s t : State) (h : ExecEffect s i t) (hne : t.dm ≠ s.dm) :
    ∃ (d : Byte) (a : Fin 16), i = .data d ∧ s.rw = .known .write ∧ s.ptr = .known a.castSucc ∧
      t.dm = memWrite s.dm a d := by
  cases h with
  | data d m a hrw hptr =>
    cases m with
    | write => exact ⟨d, a, rfl, hrw, hptr, rfl⟩
    | read => exact absurd rfl hne
  | _ => exact absurd rfl hne

/-- The mode latches are written by the two data-setting rows only (R131, R132). -/
theorem execEffect_modes (i : Instr) (s t : State) (h : ExecEffect s i t) :
    i = .dsetW ∨ i = .dsetR ∨ (t.rw = s.rw ∧ t.ainc = s.ainc ∧ t.test = s.test) := by
  cases h with
  | dsetW => exact .inl rfl
  | dsetR => exact .inr (.inl rfl)
  | data d m a hrw hptr => exact .inr (.inr ⟨by simp, by simp, by simp⟩)
  | _ => exact .inr (.inr ⟨rfl, rfl, rfl⟩)

/-- The display latch is written by the display-control row only, as a whole (R138). -/
theorem execEffect_display (i : Instr) (s t : State) (h : ExecEffect s i t) :
    (∃ n b, i = .dctrl n b ∧ t.don = .known n ∧ t.brt = .known b) ∨ (t.don = s.don ∧ t.brt = s.brt) := by
  cases h with
  | dctrl n b => exact .inl ⟨n, b, rfl, rfl, rfl⟩
  | data d m a hrw hptr => exact .inr ⟨by simp, by simp⟩
  | _ => exact .inr ⟨rfl, rfl⟩

/-! ### The command bytes of the rows that write latches -/

/-- A command byte is the encoding of the row it is read as (R91, R93). -/
theorem encode_decodeCommand (m : Byte) : encode (decodeCommand m) = m := by revert m; decide

/-- The two fields of a display-control byte, as arithmetic on the byte (R85, R88). -/
theorem encode_dctrl_fields (n : Bool) (b : BitVec 3) :
    (encode (.dctrl n b)).toNat / 16 = 8 ∧ (encode (.dctrl n b)).getLsbD 3 = n ∧
      BitVec.ofNat 3 ((encode (.dctrl n b)).toNat % 8) = b := by
  revert n b; decide

/-! ### What a host entry that completes does -/

/-- The changes an entry that is no transport event makes: the host's own fields, what it does next, and the record of
an observation. -/
inductive HostEffect (p : Params) (s : State) : State → Prop where
  | idle : HostEffect p s s
  /-- The driver sets its two fields and sends. -/
  | send (on : Bool) (b : BitVec 3) (es : List Input) : HostEffect p s ((s.setHost on b).issue es)
  /-- The cursor moves on the board (R242). -/
  | cursor (c : Nat) (hc : c < p.numCols) : HostEffect p s (s.setCol c)
  /-- The shadow changes, its canonical form kept, and is flushed (R243). -/
  | edit (sh : Memory) (es : List Input) (hsh : s.shadow.wf = true → sh.wf = true) :
    HostEffect p s ((s.setShadow sh).issue es)
  | keys (k : KeyScan) : HostEffect p s (s.setKeys k)
  | observe (v : Seen) : HostEffect p s (s.setSeen v)
  | observeFault (f : FaultCode) : HostEffect p s ((s.recordFault f).setSeen .noValue)

/-- The host's entries touch no field of the chip (R110). -/
theorem hostEffect_sameChip (p : Params) (s t : State) (h : HostEffect p s t) : SameChip s t := by
  cases h <;> constructor <;> rfl

theorem hostEffect_received (p : Params) (s t : State) (h : HostEffect p s t) : t.rx = s.rx ∧ t.busRx = s.busRx := by
  cases h <;> exact ⟨rfl, rfl⟩

theorem hostEffect_shadow_wf (p : Params) (s t : State) (h : HostEffect p s t) (hs : s.shadow.wf = true) :
    t.shadow.wf = true := by
  cases h with
  | edit sh es hsh => exact hsh hs
  | _ => exact hs

theorem hostEffect_col_lt (p : Params) (s t : State) (h : HostEffect p s t) (hs : s.col < p.numCols) :
    t.col < p.numCols := by
  cases h with
  | cursor c hc => exact hc
  | _ => exact hs

theorem hostEffect_faults_nodup (p : Params) (s t : State) (h : HostEffect p s t) (hs : s.faults.Nodup) :
    t.faults.Nodup := by
  cases h with
  | observeFault f => exact addFault_nodup _ f hs
  | _ => exact hs

/-! ### Edits of the shadow keep its canonical form -/

/-- The edit `e` of the shadow `sh` leaves a canonical shadow canonical. -/
def KeepsWf (sh : Memory) (e : ShadowEdit) : Prop := ∀ sh' a, e = some (sh', a) → sh.wf = true → sh'.wf = true

theorem editGrid_keepsWf (f : BitVec 16 → BitVec 16) (g : Fin 8) (sh : Memory) : KeepsWf sh (editGrid f g sh) := by
  intro sh' a h hs
  unfold editGrid at h
  split at h
  · cases h
  · cases h; exact putGridWord_wf _ _ _ hs

/-- A character in a grid is a change of that grid's word (R249, R254). -/
theorem charInGrid_eq_editGrid (p : Params) (mask : BitVec 16) (c : Nat) (ch : Byte) (sh : Memory) :
    charInGrid p mask c ch sh = editGrid (fun w => (w &&& mask) ||| (p.font ch &&& ~~~mask)) (p.colGrid c) sh := rfl

theorem editBit_wf (sh sh' : Memory) (a : Fin 16) (k : Fin 8) (v : Bool) (h : editBit sh a k v = some sh')
    (hs : sh.wf = true) : sh'.wf = true := by
  unfold editBit at h
  split at h
  · cases h
  · cases h; exact memWrite_wf _ _ _ hs

theorem editSegments_wf (p : Params) (k : Fin 8) (pattern : BitVec 16) (l : List (Fin 7)) (sh sh' : Memory)
    (h : editSegments p k pattern l sh = some sh') (hs : sh.wf = true) : sh'.wf = true := by
  induction l generalizing sh with
  | nil => cases h; exact hs
  | cons i l ih =>
    unfold editSegments at h
    split at h
    · cases h
    · exact ih _ h (editBit_wf _ _ _ _ _ ‹_› hs)

/-- A decimal point in a grid is a change of one bit (R250, R255). -/
theorem pointInGrid_eq_editBit (p : Params) (c : Nat) (sh : Memory) :
    pointInGrid p c sh =
      (editBit sh (evenAddr (p.colGrid c)) p.dpBit true).map fun sh' => (sh', [evenAddr (p.colGrid c)]) := by
  unfold pointInGrid editBit
  cases memRead sh (evenAddr (p.colGrid c)).val <;> rfl

theorem map_keepsWf (sh : Memory) (e : Option Memory) (t : List (Fin 16))
    (he : ∀ sh', e = some sh' → sh.wf = true → sh'.wf = true) : KeepsWf sh (e.map fun sh' => (sh', t)) := by
  intro sh' a h
  obtain ⟨sh'', hsh, heq⟩ := Option.map_eq_some_iff.1 h
  cases heq
  exact he _ hsh

theorem writeChar_keepsWf (p : Params) (c : Nat) (ch : Byte) (sh : Memory) : KeepsWf sh (writeChar p c ch sh) := by
  unfold writeChar
  split
  · rw [charInGrid_eq_editGrid]; exact editGrid_keepsWf _ _ _
  · exact map_keepsWf _ _ _ fun sh' => editSegments_wf _ _ _ _ _ _
  · rw [charInGrid_eq_editGrid]; exact editGrid_keepsWf _ _ _

theorem setPoint_keepsWf (p : Params) (c : Nat) (sh : Memory) : KeepsWf sh (setPoint p c sh) := by
  unfold setPoint
  split
  · rw [pointInGrid_eq_editBit]; exact map_keepsWf _ _ _ fun sh' => editBit_wf _ _ _ _ _
  · exact map_keepsWf _ _ _ fun sh' => editBit_wf _ _ _ _ _
  · rw [pointInGrid_eq_editBit]; exact map_keepsWf _ _ _ fun sh' => editBit_wf _ _ _ _ _

/-! ### What an operation and an entry that complete do -/

theorem commitEdit_effect (p : Params) (e : ShadowEdit) (after : List Input) (s t : State) (he : KeepsWf s.shadow e)
    (h : commitEdit e after s = .next t) : HostEffect p s t := by
  obtain ⟨sh, a, es, hsh, -, rfl⟩ := commitEdit_next e after s t h
  exact .edit sh _ (he sh a hsh)

theorem numCols_pos (p : Params) : 0 < p.numCols := Nat.succ_pos _

theorem clampCol_lt (p : Params) (c : Nat) : clampCol p c < p.numCols := by
  have := numCols_pos p
  unfold clampCol
  omega

theorem boardPutc_effect (p : Params) (ch : Byte) (s t : State) (h : boardPutc p ch s = .next t) :
    HostEffect p s t := by
  unfold boardPutc at h
  split at h
  · cases h; exact .cursor 0 (numCols_pos p)
  · split at h
    · split at h
      · cases h; exact .idle
      · exact commitEdit_effect _ _ _ _ _ (setPoint_keepsWf _ _ _) h
    · split at h
      · exact commitEdit_effect _ _ _ _ _ (writeChar_keepsWf _ _ _ _) h
      · cases h; exact .idle

theorem boardIcon_effect (p : Params) (f : BitVec 16 → BitVec 16) (id : Nat) (s t : State)
    (h : boardIcon f id s = .next t) : HostEffect p s t := by
  unfold boardIcon at h
  split at h
  · exact commitEdit_effect _ _ _ _ _ (editGrid_keepsWf _ _ _) h
  · exact absurd h (refuse_ne_next _ _ _)

theorem runOp_effect (p : Params) (o : HostOp) (s t : State) (h : runOp p o s = .next t) : HostEffect p s t := by
  cases o with
  | init => cases h; exact .send _ _ _
  | setBrightness x => cases h; exact .send _ _ _
  | setDisplayOn on => cases h; exact .send _ _ _
  | writeByte data address => cases h; exact .send s.hDon s.hBrt _
  | writeBlock buf length address => cases h; exact .send s.hDon s.hBrt _
  | clearScreen => cases h; exact .send s.hDon s.hBrt _
  | scanKeys => cases h; exact .send s.hDon s.hBrt _
  | putc ch => exact boardPutc_effect p ch s t h
  | locate c => cases h; exact .cursor _ (clampCol_lt p c)
  | writeCell c ch => exact commitEdit_effect _ _ _ _ _ (writeChar_keepsWf _ _ _ _) h
  | setIcon id => exact boardIcon_effect _ _ _ _ _ h
  | clrIcon id => exact boardIcon_effect _ _ _ _ _ h
  | clearAll => cases h; exact .edit zeroMemory _ fun _ => zeroMemory_wf
  | customGlyph => exact absurd h (refuse_ne_next _ _ _)

theorem hostMaskKeys_effect (p : Params) (s t : State) (h : hostMaskKeys p s = .next t) : HostEffect p s t := by
  unfold hostMaskKeys at h
  split at h
  · cases h; exact .keys _
  · cases h

theorem hostCountKeys_effect (p : Params) (s t : State) (h : hostCountKeys p s = .next t) : HostEffect p s t := by
  unfold hostCountKeys at h
  split at h
  · cases h; exact .keys _
  · cases h
  · cases h

/-- What an entry of the host's input that completes does: the chip runs an instruction, or is selected or deselected,
or the host alone changes (R110). -/
inductive InputEffect (p : Params) (e : Input) (s : State) : State → Prop where
  | exchange (t : State) (m : Byte) (i : Instr) (he : exchanged e = some m) (hcs : s.cs = .asserted)
    (hdec : decode s.seq m = .ok i) (hexec : exec i s = .next t) : InputEffect p e s t
  | select (he : e = .csAssert) : InputEffect p e s s.openTransaction
  | deselect (he : e = .csDeassert) : InputEffect p e s s.closeTransaction
  | host (t : State) (h : HostEffect p s t) : InputEffect p e s t

theorem transfer_effect (p : Params) (e : Input) (m : Byte) (s t : State) (he : exchanged e = some m)
    (h : transfer m s = .next t) : InputEffect p e s t := by
  obtain ⟨hcs, i, hdec, hexec⟩ := transfer_next m s t h
  exact .exchange t m i he hcs hdec hexec

theorem runInput_effect (p : Params) (e : Input) (s t : State) (h : runInput p e s = .next t) :
    InputEffect p e s t := by
  cases e with
  | csAssert => obtain ⟨-, rfl⟩ := csAssert_next s t h; exact .select rfl
  | csDeassert => obtain ⟨-, rfl⟩ := csDeassert_next s t h; exact .deselect rfl
  | xfer m => exact transfer_effect p _ m s t rfl h
  | busXfer b => exact transfer_effect p _ (flipByte b) s t rfl h
  | bits l =>
    obtain ⟨bs, -, rfl⟩ := transcribe_next l s t h
    exact .host _ (.send s.hDon s.hBrt _)
  | observeLit g j =>
    obtain ⟨v, -, rfl⟩ | ⟨-, rfl⟩ := observeLit_next g j s t h
    · exact .host _ (.observe _)
    · exact .host _ (.observeFault _)
  | observeLevel =>
    obtain ⟨b, -, rfl⟩ | ⟨-, rfl⟩ := observeLevel_next s t h
    · exact .host _ (.observe _)
    · exact .host _ (.observeFault _)
  | op o => exact .host _ (runOp_effect p o s t h)
  | maskKeys => exact .host _ (hostMaskKeys_effect p s t h)
  | countKeys => exact .host _ (hostCountKeys_effect p s t h)
  | cursorNext => cases h; exact .host _ (.cursor _ (Nat.mod_lt _ (numCols_pos p)))
  | cursorHome => cases h; exact .host _ (.cursor 0 (numCols_pos p))

/-- A step that completes leaves a quiet host as it is, or has the effect of the first entry of the input. -/
theorem step_effect (s t : State) (h : step s = .next t) :
    t = s ∨ ∃ e rest, s.input = e :: rest ∧ InputEffect Config.params e (s.setInput rest) t := by
  obtain ⟨-, ⟨-, rfl⟩ | ⟨e, rest, hin, hrun⟩⟩ := stepWith_next _ s t h
  · exact .inl rfl
  · exact .inr ⟨e, rest, hin, runInput_effect _ e _ t hrun⟩

/-! ### The writers of the chip's fields -/

/-- Settles O39: of what a step can do, only an instruction reaches display memory, and of those only a data byte in
write mode. -/
theorem displayMemoryWrittenByDataBytesOnly : Obligations.DisplayMemoryWrittenByDataBytesOnly := by
  intro s t h hne
  obtain rfl | ⟨e, rest, hin, heff⟩ := step_effect s t h
  · exact absurd rfl hne
  cases heff with
  | exchange _ m i he hcs hdec hexec =>
    obtain ⟨d, a, rfl, hrw, hptr, hdm⟩ := execEffect_dm_ne i _ t (exec_effect i _ t hexec) hne
    obtain ⟨hseq, rfl⟩ := decode_data _ m d hdec
    exact ⟨e, rest, d, a, hin, he, hcs, hseq, hrw, hptr, hdm⟩
  | select he => exact absurd rfl hne
  | deselect he => exact absurd rfl hne
  | host _ hh => exact absurd (hostEffect_sameChip _ _ t hh).dm hne

/-- Settles O40: of what a step can do, only the two data-setting rows reach the mode latches, and each is the row of
one command byte. -/
theorem modesWrittenByDataSettingOnly : Obligations.ModesWrittenByDataSettingOnly := by
  intro s t h hne
  have not_kept : ¬(t.rw = s.rw ∧ t.ainc = s.ainc ∧ t.test = s.test) := by tauto
  obtain rfl | ⟨e, rest, hin, heff⟩ := step_effect s t h
  · exact absurd ⟨rfl, rfl, rfl⟩ not_kept
  cases heff with
  | exchange _ m i he hcs hdec hexec =>
    obtain rfl | rfl | hkept := execEffect_modes i _ t (exec_effect i _ t hexec)
    · obtain ⟨hseq, hm⟩ := decode_command _ m _ hdec (by simp) (by simp)
      exact ⟨e, rest, m, hin, he, hcs, hseq, .inl (by rw [← encode_decodeCommand m, hm]; rfl)⟩
    · obtain ⟨hseq, hm⟩ := decode_command _ m _ hdec (by simp) (by simp)
      exact ⟨e, rest, m, hin, he, hcs, hseq, .inr (by rw [← encode_decodeCommand m, hm]; rfl)⟩
    · exact absurd hkept not_kept
  | select he => exact absurd ⟨rfl, rfl, rfl⟩ not_kept
  | deselect he => exact absurd ⟨rfl, rfl, rfl⟩ not_kept
  | host _ hh =>
    have hc := hostEffect_sameChip _ _ t hh
    exact absurd ⟨hc.rw, hc.ainc, hc.test⟩ not_kept

/-- Only a display-control command reaches the display latch, and it writes its two fields (R29, R138). -/
theorem display_written_by_dctrl (s t : State) (h : step s = .next t) (hne : t.don ≠ s.don ∨ t.brt ≠ s.brt) :
    ∃ (e : Input) (rest : List Input) (m : Byte), s.input = e :: rest ∧ exchanged e = some m ∧
      s.cs = .asserted ∧ s.seq = .expectCmd ∧ m.toNat / 16 = 8 ∧
      t.don = .known (m.getLsbD 3) ∧ t.brt = .known (BitVec.ofNat 3 (m.toNat % 8)) := by
  have not_kept : ¬(t.don = s.don ∧ t.brt = s.brt) := by tauto
  obtain rfl | ⟨e, rest, hin, heff⟩ := step_effect s t h
  · exact absurd ⟨rfl, rfl⟩ not_kept
  cases heff with
  | exchange _ m i he hcs hdec hexec =>
    obtain ⟨n, b, rfl, hdon, hbrt⟩ | hkept := execEffect_display i _ t (exec_effect i _ t hexec)
    · obtain ⟨hseq, hm⟩ := decode_command _ m _ hdec (by simp) (by simp)
      obtain ⟨hclass, hn, hb⟩ := encode_dctrl_fields n b
      rw [← hm, encode_decodeCommand] at hclass hn hb
      exact ⟨e, rest, m, hin, he, hcs, hseq, hclass, by rw [hdon, hn], by rw [hbrt, hb]⟩
    · exact absurd hkept not_kept
  | select he => exact absurd ⟨rfl, rfl⟩ not_kept
  | deselect he => exact absurd ⟨rfl, rfl⟩ not_kept
  | host _ hh =>
    have hc := hostEffect_sameChip _ _ t hh
    exact absurd ⟨hc.don, hc.brt⟩ not_kept

/-- Only the host's two events reach chip-select (R32). -/
theorem chipSelect_written_by_events (s t : State) (h : step s = .next t) (hne : t.cs ≠ s.cs) :
    ∃ rest, (s.input = .csAssert :: rest ∧ t.cs = .asserted) ∨ (s.input = .csDeassert :: rest ∧ t.cs = .deasserted) := by
  obtain rfl | ⟨e, rest, hin, heff⟩ := step_effect s t h
  · exact absurd rfl hne
  cases heff with
  | exchange _ m i he hcs hdec hexec => exact absurd (exec_keeps i _ t hexec).cs hne
  | select he => exact ⟨rest, .inl ⟨he ▸ hin, rfl⟩⟩
  | deselect he => exact ⟨rest, .inr ⟨he ▸ hin, rfl⟩⟩
  | host _ hh => exact absurd (hostEffect_sameChip _ _ t hh).cs hne

/-- Settles O41, by the writers of the display latch and of chip-select. -/
theorem displayLatchAndChipSelectWriters : Obligations.DisplayLatchAndChipSelectWriters :=
  fun s t h => ⟨display_written_by_dctrl s t h, chipSelect_written_by_events s t h⟩

/-! ### Power-up -/

/-- Settles O34: the reset state's display memory lists no byte, and its other fields stand as R38 gives them. -/
theorem powerUpState : Obligations.PowerUpState :=
  ⟨memRead_nil, rfl, rfl, rfl, rfl, rfl, rfl, rfl, rfl, rfl, rfl⟩

/-- Settles O35: at power-up the memories are empty, every latch is unknown, and no transaction is open. -/
theorem powerUpMeetsTheInvariant : Obligations.PowerUpMeetsTheInvariant where
  dm := rfl
  shadow := rfl
  idle := ⟨fun _ => rfl, fun _ => rfl⟩
  pointer := nofun
  modes := .unknown _ rfl rfl rfl
  keyMode := nofun
  display := ⟨fun _ => rfl, fun _ => rfl⟩
  column := numCols_pos _
  rxStart := nofun
  rxKeys := nofun
  received := rfl
  faults := .nil

/-! ### The invariant -/

theorem modesTogether_congr (s t : State) (hr : t.rw = s.rw) (ha : t.ainc = s.ainc) (ht : t.test = s.test)
    (h : ModesTogether s) : ModesTogether t := by
  cases h with
  | unknown hr' ha' ht' => exact .unknown t (hr.trans hr') (ha.trans ha') (ht.trans ht')
  | known m hr' ha' ht' => exact .known t m (hr.trans hr') (ha.trans ha') (ht.trans ht')

/-- The invariant carries over to a state with the same chip and the same received bytes. -/
theorem machineInv_of_sameChip (s t : State) (hs : MachineInv s) (hc : SameChip s t)
    (hrx : t.rx = s.rx ∧ t.busRx = s.busRx) (hsh : t.shadow.wf = true) (hcol : t.col < Config.params.numCols)
    (hf : t.faults.Nodup) : MachineInv t where
  dm := hc.dm ▸ hs.dm
  shadow := hsh
  idle := by rw [hc.cs, hc.seq]; exact hs.idle
  pointer := by rw [hc.seq, hc.ptr]; exact hs.pointer
  modes := modesTogether_congr s t hc.rw hc.ainc hc.test hs.modes
  keyMode := by rw [hc.seq, hc.rw]; exact hs.keyMode
  display := by rw [hc.don, hc.brt]; exact hs.display
  column := hcol
  rxStart := by rw [hc.seq, hrx.1]; exact hs.rxStart
  rxKeys := by rw [hc.seq, hrx.1]; exact hs.rxKeys
  received := by rw [hrx.1, hrx.2]; exact hs.received
  faults := hf

theorem machineInv_hostEffect (s t : State) (hs : MachineInv s) (h : HostEffect Config.params s t) : MachineInv t :=
  machineInv_of_sameChip s t hs (hostEffect_sameChip _ s t h) (hostEffect_received _ s t h)
    (hostEffect_shadow_wf _ s t h hs.shadow) (hostEffect_col_lt _ s t h hs.column)
    (hostEffect_faults_nodup _ s t h hs.faults)

theorem machineInv_setInput (s : State) (es : List Input) (hs : MachineInv s) : MachineInv (s.setInput es) :=
  machineInv_of_sameChip s _ hs (by constructor <;> rfl) ⟨rfl, rfl⟩ hs.shadow hs.column hs.faults

/-- An open transaction waits for its command byte and has received nothing (R111, R201). -/
theorem machineInv_openTransaction (s : State) (hs : MachineInv s) : MachineInv s.openTransaction where
  dm := hs.dm
  shadow := hs.shadow
  idle := by simp
  pointer := nofun
  modes := modesTogether_congr s _ rfl rfl rfl hs.modes
  keyMode := nofun
  display := hs.display
  column := hs.column
  rxStart := fun _ => rfl
  rxKeys := nofun
  received := rfl
  faults := hs.faults

/-- A closed transaction is at no position, so that the clauses about positions have nothing to say (R115). -/
theorem machineInv_closeTransaction (s : State) (hs : MachineInv s) : MachineInv s.closeTransaction where
  dm := hs.dm
  shadow := hs.shadow
  idle := by simp
  pointer := nofun
  modes := modesTogether_congr s _ rfl rfl rfl hs.modes
  keyMode := nofun
  display := hs.display
  column := hs.column
  rxStart := nofun
  rxKeys := nofun
  received := hs.received
  faults := hs.faults

/-! ### An instruction keeps the invariant: one lemma per clause that instructions can touch -/

theorem execEffect_dm_wf (i : Instr) (s t : State) (h : ExecEffect s i t) (hs : s.dm.wf = true) : t.dm.wf = true := by
  by_cases hne : t.dm = s.dm
  · rw [hne]; exact hs
  · obtain ⟨d, a, -, -, -, hdm⟩ := execEffect_dm_ne i s t h hne
    rw [hdm]; exact memWrite_wf _ _ _ hs

theorem execEffect_modesTogether (i : Instr) (s t : State) (h : ExecEffect s i t) (hs : ModesTogether s) :
    ModesTogether t := by
  cases h with
  | dsetW => exact .known _ .write rfl rfl rfl
  | dsetR => exact .known _ .read rfl rfl rfl
  | data d m a hrw hptr => exact modesTogether_congr s _ (by simp) (by simp) (by simp) hs
  | _ => exact modesTogether_congr s _ rfl rfl rfl hs

theorem execEffect_display_whole (i : Instr) (s t : State) (h : ExecEffect s i t) (hs : s.don = .bot ↔ s.brt = .bot) :
    t.don = .bot ↔ t.brt = .bot := by
  obtain ⟨n, b, -, hdon, hbrt⟩ | ⟨hdon, hbrt⟩ := execEffect_display i s t h
  · simp [hdon, hbrt]
  · rw [hdon, hbrt]; exact hs

/-- Where an instruction leaves the transaction: closed; at data bytes, with the pointer known; or at the next key byte,
in read mode, with one received byte for the command and for each key byte so far (R131, R132, R136, R138, R181). -/
inductive SeqAfter (t : State) : Prop where
  | closed (hseq : t.seq = .closed)
  | addrData (hseq : t.seq = .addrData) (p : Fin 17) (hptr : t.ptr = .known p)
  | keyRead (k : Fin 5) (hseq : t.seq = .keyRead k) (hrw : t.rw = .known .read) (hrx : t.rx.length = k.val + 1)

theorem execEffect_seqAfter (m : Byte) (i : Instr) (s t : State) (hs : MachineInv s) (hdec : decode s.seq m = .ok i)
    (h : ExecEffect s i t) : SeqAfter t := by
  cases h with
  | dsetW => exact .closed rfl
  | dsetR =>
    obtain ⟨hseq, -⟩ := decode_command _ m _ hdec (by simp) (by simp)
    exact .keyRead 0 rfl rfl (by simp [hs.rxStart hseq])
  | addr a => exact .addrData rfl (ptrOf a) rfl
  | dctrl n b => exact .closed rfl
  | data d m' a hrw hptr =>
    obtain ⟨hseq, -⟩ := decode_data _ m d hdec
    exact .addrData (by simpa using hseq) (ptrAfter a) rfl
  | rdkey k hseq => exact .keyRead k.succ rfl (hs.keyMode _ hseq) (by simp [hs.rxKeys _ hseq])

theorem seqAfter_ne_idle (t : State) (h : SeqAfter t) : t.seq ≠ .idle := by cases h <;> simp [*]

theorem seqAfter_ne_expectCmd (t : State) (h : SeqAfter t) : t.seq ≠ .expectCmd := by cases h <;> simp [*]

theorem seqAfter_addrData (t : State) (h : SeqAfter t) (hq : t.seq = .addrData) : t.ptr ≠ .bot := by
  cases h with
  | addrData hseq p hptr => simp [hptr]
  | closed hseq => simp [hseq] at hq
  | keyRead k hseq hrw hrx => simp [hseq] at hq

theorem seqAfter_keyRead (t : State) (h : SeqAfter t) (k : Fin 5) (hq : t.seq = .keyRead k) :
    t.rw = .known .read ∧ t.rx.length = k.val + 1 := by
  cases h with
  | keyRead k' hseq hrw hrx => cases hseq.symm.trans hq; exact ⟨hrw, hrx⟩
  | closed hseq => simp [hseq] at hq
  | addrData hseq p hptr => simp [hseq] at hq

theorem machineInv_exec (m : Byte) (i : Instr) (s t : State) (hs : MachineInv s) (hcs : s.cs = .asserted)
    (hdec : decode s.seq m = .ok i) (h : exec i s = .next t) : MachineInv t := by
  have heff := exec_effect i s t h
  have hkeep := exec_keeps i s t h
  have hseq := execEffect_seqAfter m i s t hs hdec heff
  obtain ⟨r, hbus, hrx⟩ := hkeep.received
  exact {
    dm := execEffect_dm_wf i s t heff hs.dm
    shadow := hkeep.shadow ▸ hs.shadow
    idle := by simp [hkeep.cs, hcs, seqAfter_ne_idle t hseq]
    pointer := seqAfter_addrData t hseq
    modes := execEffect_modesTogether i s t heff hs.modes
    keyMode := fun k hk => (seqAfter_keyRead t hseq k hk).1
    display := execEffect_display_whole i s t heff hs.display
    column := hkeep.col ▸ hs.column
    rxStart := fun hq => absurd hq (seqAfter_ne_expectCmd t hseq)
    rxKeys := fun k hk => (seqAfter_keyRead t hseq k hk).2
    received := by simp [hbus, hrx, hs.received]
    faults := hkeep.faults ▸ hs.faults }

/-- Settles O36: a quiet host changes nothing, and each of the four effects an entry can have keeps the invariant. -/
theorem everyStepKeepsTheInvariant : Obligations.EveryStepKeepsTheInvariant := by
  intro s t hs h
  obtain rfl | ⟨e, rest, -, heff⟩ := step_effect s t h
  · exact hs
  have hs' := machineInv_setInput s rest hs
  cases heff with
  | exchange _ m i he hcs hdec hexec => exact machineInv_exec m i _ t hs' hcs hdec hexec
  | select he => exact machineInv_openTransaction _ hs'
  | deselect he => exact machineInv_closeTransaction _ hs'
  | host _ hh => exact machineInv_hostEffect _ t hs' hh

end Sys2Proof.Machine
end

section
/-!
PROOFS of the memory family: repeated writes of a 16-byte file, the steps of a transaction, the bytes the chip returns,
block writes, and the shadow as a mirror of display memory.
-/

namespace Sys2Proof.Machine

/-! ### Repeated writes -/

theorem memInsert_memInsert_self (m : Memory) (a : Nat) (v : Byte) :
    memInsert (memInsert m a v) a v = memInsert m a v := by
  induction m with
  | nil => simp [memInsert]
  | cons c m ih =>
    obtain ⟨b, w⟩ := c
    by_cases hlt : a < b
    · simp [memInsert, hlt]
    · by_cases heq : a = b
      · simp [memInsert, heq]
      · simp [memInsert, hlt, heq, ih]

/-- Settles O23: the second write finds the entry of the first, wherever in the list that stands. -/
theorem displayWritesAreIdempotent : Obligations.DisplayWritesAreIdempotent :=
  fun m a v => memInsert_memInsert_self m a.val v

/-! ### The steps of a transaction -/

/-- An entry that exchanges a byte is that byte's exchange, on the bus and on the chip's side alike (R116). -/
theorem runInput_of_exchanged (p : Params) (e : Input) (m : Byte) (s : State) (he : exchanged e = some m) :
    runInput p e s = transfer m s := by
  cases e with
  | xfer b => cases he; rfl
  | busXfer b => cases he; rfl
  | _ => cases he

theorem step_of_exchanged (s : State) (e : Input) (rest : List Input) (m : Byte) (i : Instr) (hr : s.refused = none)
    (hi : s.input = e :: rest) (he : exchanged e = some m) (hcs : s.cs = .asserted) (hd : decode s.seq m = .ok i) :
    step s = exec i (s.setInput rest) := by
  rw [step, stepWith_input _ s e rest hr hi, runInput_of_exchanged _ e m _ he]
  exact transfer_ok m _ i hcs hd

/-- Settles O7: the entry's byte is exchanged, and the decoder's instruction is run. -/
theorem stepRunsTheDecodedInstruction : Obligations.StepRunsTheDecodedInstruction :=
  step_of_exchanged

/-- The effect of an instruction where its row's conditions hold: the converse of `exec_effect`. -/
theorem exec_of_effect (i : Instr) (s t : State) (h : ExecEffect s i t) : exec i s = .next t := by
  cases h with
  | data d m a hrw hptr => simp [exec, execData, hrw, hptr]
  | rdkey k hseq => simp [exec, execRdkey, hseq]
  | _ => rfl

/-- The step at a chip byte whose instruction has the effect `t`. -/
theorem step_xfer (s t : State) (m : Byte) (i : Instr) (rest : List Input) (hr : s.refused = none)
    (hi : s.input = .xfer m :: rest) (hcs : s.cs = .asserted) (hd : decode s.seq m = .ok i)
    (h : ExecEffect (s.setInput rest) i t) : step s = .next t := by
  rw [step_of_exchanged s _ rest m i hr hi rfl hcs hd, exec_of_effect i _ t h]

theorem step_csAssert (s : State) (rest : List Input) (hr : s.refused = none) (hi : s.input = .csAssert :: rest)
    (hcs : s.cs = .deasserted) : step s = .next (s.setInput rest).openTransaction := by
  rw [step, stepWith_input _ s _ rest hr hi]
  simp [runInput, csAssert, hcs]

theorem step_csDeassert (s : State) (rest : List Input) (hr : s.refused = none) (hi : s.input = .csDeassert :: rest)
    (hcs : s.cs = .asserted) : step s = .next (s.setInput rest).closeTransaction := by
  rw [step, stepWith_input _ s _ rest hr hi]
  simp [runInput, csDeassert, hcs]

/-- The step at a read byte: key-memory byte `k` is received (R181). -/
theorem step_rdkey (s : State) (k : Fin 4) (rest : List Input) (hr : s.refused = none)
    (hi : s.input = .xfer 0xFF :: rest) (hcs : s.cs = .asserted) (hq : s.seq = .keyRead k.castSucc) :
    step s = .next (((s.setInput rest).setSeq (nextRead k)).reply (Config.keyMemory k s.draws)) :=
  step_xfer s _ 0xFF .rdkey rest hr hi hcs (by simp [hq, decode]) (.rdkey k hq)

/-- What a run comes to, from its first step: `run_succ` with the rest of the run at hand. -/
theorem run_of_step (k : Nat) (s t : State) (r : Host.Outcome State Fault Refusal) (h : step s = .next t)
    (ht : Sys2Proof.core.run k t = r) : Sys2Proof.core.run (k + 1) s = r :=
  (run_succ k s t h).trans ht

/-- `s` inside a read transaction at `KEY_READ(j)`: the chip bytes `l` received so far, `n` free values drawn, `es` still
to do (R132, R181). -/
def State.reading (s : State) (j : Fin 5) (l : List Byte) (n : Nat) (es : List Input) : State :=
  { s with
    rw := .known .read, ainc := .known .inc, test := .known .normal, cs := .asserted, seq := .keyRead j, input := es,
    draws := n, rx := l, busRx := l.map flipByte }

/-- `DSET.R` at the start of a transaction: one free byte is received (R114, R132). -/
theorem step_dsetR_reading (s : State) (es : List Input) (hr : s.refused = none) :
    step (s.setInput (.xfer 0x42 :: es)).openTransaction =
      .next (s.reading 0 [Config.lineByte s.draws] (s.draws + 1) es) := by
  have hd : decode .expectCmd 0x42 = .ok .dsetR := by decide
  refine Eq.trans (step_xfer _ _ 0x42 .dsetR es (by simp [hr]) rfl rfl hd .dsetR) ?_
  simp [State.reading, State.reply, State.receive, State.advanceDraw, State.setInput, State.openTransaction,
    State.setModes, State.setSeq, lineDraw]

theorem step_rdkey_reading (s : State) (j : Fin 4) (l : List Byte) (n : Nat) (es : List Input) (hr : s.refused = none) :
    step (s.reading j.castSucc l n (.xfer 0xFF :: es)) =
      .next (s.reading j.succ (l ++ [Config.keyMemory j n]) (n + 1) es) := by
  refine Eq.trans (step_rdkey _ j es hr rfl rfl rfl) ?_
  simp [State.reading, State.reply, State.receive, State.advanceDraw, State.setInput, State.setSeq, nextRead]

/-- Settles O31: the seven steps in order: select, `DSET.R`, the four read bytes, deselect. -/
theorem readTransactionReturnsFourBytes : Obligations.ReadTransactionReturnsFourBytes := by
  intro s rest hr hcs hi
  refine run_of_step 6 _ _ _ (step_csAssert s _ hr hi hcs) ?_
  refine run_of_step 5 _ _ _ (step_dsetR_reading s _ hr) ?_
  refine run_of_step 4 _ _ _ (step_rdkey_reading s 0 _ _ _ hr) ?_
  refine run_of_step 3 _ _ _ (step_rdkey_reading s 1 _ _ _ hr) ?_
  refine run_of_step 2 _ _ _ (step_rdkey_reading s 2 _ _ _ hr) ?_
  refine run_of_step 1 _ _ _ (step_rdkey_reading s 3 _ _ _ hr) ?_
  exact run_of_step 0 _ _ _ (step_csDeassert _ rest hr rfl rfl) rfl

/-! ### The bytes the chip returns -/

/-- `s` with other received bytes, in either view, and another count of free values drawn. -/
def State.withReturned (s : State) (n : Nat) (l k : List Byte) : State := { s with draws := n, rx := l, busRx := k }

/-- What the returned bytes do not reach: the chip, the marks of the run, the host's input and the count of received
bytes. -/
structure SameButReturned (t u : State) : Prop where
  chip : SameChip t u
  refused : u.refused = t.refused
  faults : u.faults = t.faults
  input : u.input = t.input
  rx : u.rx.length = t.rx.length
  busRx : u.busRx.length = t.busRx.length

section
variable (n : Nat) (l k : List Byte) (s t : State)

theorem sameButReturned_withReturned (hl : l.length = s.rx.length) (hk : k.length = s.busRx.length) :
    SameButReturned s (s.withReturned n l k) :=
  ⟨by constructor <;> rfl, rfl, rfl, rfl, hl, hk⟩

/-- What an instruction does is the same with other returned bytes, the byte it returns aside (R114, R182). -/
theorem execEffect_withReturned (i : Instr) (h : ExecEffect s i t) :
    ∃ u, ExecEffect (s.withReturned n l k) i u ∧ SameChip t u := by
  cases h with
  | dsetW => exact ⟨_, .dsetW, by constructor <;> simp [State.withReturned]⟩
  | dsetR => exact ⟨_, .dsetR, by constructor <;> simp [State.withReturned]⟩
  | addr a => exact ⟨_, .addr a, by constructor <;> simp [State.withReturned]⟩
  | dctrl x b => exact ⟨_, .dctrl x b, by constructor <;> simp [State.withReturned]⟩
  | data d m a hrw hptr => exact ⟨_, .data d m a hrw hptr, by cases m <;> constructor <;> simp [State.withReturned]⟩
  | rdkey j hseq => exact ⟨_, .rdkey j hseq, by constructor <;> simp [State.withReturned]⟩

/-- An instruction that completes does so with other returned bytes too, and receives one byte either way. -/
theorem exec_withReturned (i : Instr) (hl : l.length = s.rx.length) (hk : k.length = s.busRx.length)
    (h : exec i s = .next t) : ∃ u, exec i (s.withReturned n l k) = .next u ∧ SameButReturned t u := by
  obtain ⟨u, heff, hchip⟩ := execEffect_withReturned n l k s t i (exec_effect i s t h)
  have hexec := exec_of_effect i _ u heff
  have keeps_t := exec_keeps i s t h
  have keeps_u := exec_keeps i _ u hexec
  obtain ⟨r, hbt, hrt⟩ := keeps_t.received
  obtain ⟨q, hbu, hru⟩ := keeps_u.received
  exact ⟨u, hexec, {
    chip := hchip
    refused := keeps_u.refused.trans keeps_t.refused.symm
    faults := keeps_u.faults.trans keeps_t.faults.symm
    input := keeps_u.input.trans keeps_t.input.symm
    rx := by simp [hrt, hru, State.withReturned, hl]
    busRx := by simp [hbt, hbu, State.withReturned, hk] }⟩

theorem commitEdit_withReturned (e : ShadowEdit) (after : List Input) (h : commitEdit e after s = .next t) :
    commitEdit e after (s.withReturned n l k) = .next (t.withReturned n l k) := by
  obtain ⟨sh, a, es, he, hf, rfl⟩ := commitEdit_next e after s t h
  exact commitEdit_some _ e sh a es after he hf

theorem boardPutc_withReturned (p : Params) (ch : Byte) (h : boardPutc p ch s = .next t) :
    boardPutc p ch (s.withReturned n l k) = .next (t.withReturned n l k) := by
  unfold boardPutc at h ⊢
  split at h
  · rw [if_pos ‹_›]; cases h; rfl
  · rw [if_neg ‹_›]
    split at h
    · rw [if_pos ‹_›]
      split at h
      · rw [if_pos ‹_›]; cases h; rfl
      · rw [if_neg ‹_›]; exact commitEdit_withReturned n l k s t _ _ h
    · rw [if_neg ‹_›]
      split at h
      · rw [if_pos ‹_›]; exact commitEdit_withReturned n l k s t _ _ h
      · rw [if_neg ‹_›]; cases h; rfl

theorem boardIcon_withReturned (f : BitVec 16 → BitVec 16) (id : Nat) (h : boardIcon f id s = .next t) :
    boardIcon f id (s.withReturned n l k) = .next (t.withReturned n l k) := by
  unfold boardIcon at h ⊢
  split at h
  · rw [dif_pos ‹_›]; exact commitEdit_withReturned n l k s t _ _ h
  · exact absurd h (refuse_ne_next _ _ _)

/-- An operation of the host reads nothing that the chip returns: it expands to the same events (R94). -/
theorem runOp_withReturned (p : Params) (o : HostOp) (h : runOp p o s = .next t) :
    runOp p o (s.withReturned n l k) = .next (t.withReturned n l k) := by
  cases o with
  | putc ch => exact boardPutc_withReturned n l k s t p ch h
  | writeCell c ch => exact commitEdit_withReturned n l k s t _ _ h
  | setIcon id => exact boardIcon_withReturned n l k s t _ id h
  | clrIcon id => exact boardIcon_withReturned n l k s t _ id h
  | customGlyph => exact absurd h (refuse_ne_next _ _ _)
  | _ => cases h; rfl

/-- The masking needs five received bytes, whatever they are; they reach the key result only (R212). -/
theorem hostMaskKeys_withReturned (p : Params) (hl : l.length = s.rx.length) (hk : k.length = s.busRx.length)
    (h : hostMaskKeys p s = .next t) :
    ∃ u, hostMaskKeys p (s.withReturned n l k) = .next u ∧ SameButReturned t u := by
  unfold hostMaskKeys at h
  split at h
  · rename_i c r0 r1 r2 r3 hrx
    cases h
    obtain ⟨c', q0, q1, q2, q3, rfl⟩ : ∃ c' q0 q1 q2 q3, l = [c', q0, q1, q2, q3] := by
      rw [hrx] at hl
      match l, hl with
      | [c', q0, q1, q2, q3], _ => exact ⟨c', q0, q1, q2, q3, rfl⟩
    exact ⟨_, rfl, by constructor <;> rfl, rfl, rfl, rfl, hl, hk⟩
  · cases h

theorem hostCountKeys_withReturned (p : Params) (h : hostCountKeys p s = .next t) :
    hostCountKeys p (s.withReturned n l k) = .next (t.withReturned n l k) := by
  simp only [hostCountKeys, State.withReturned] at h ⊢
  split at h <;> cases h
  rfl

theorem transfer_withReturned (m : Byte) (hl : l.length = s.rx.length) (hk : k.length = s.busRx.length)
    (h : transfer m s = .next t) : ∃ u, transfer m (s.withReturned n l k) = .next u ∧ SameButReturned t u := by
  obtain ⟨hcs, i, hdec, hexec⟩ := transfer_next m s t h
  obtain ⟨u, hu, hsame⟩ := exec_withReturned n l k s t i hl hk hexec
  exact ⟨u, (transfer_ok m (s.withReturned n l k) i hcs hdec).trans hu, hsame⟩

theorem observeLit_withReturned (g : Fin 8) (j : Fin 16) (h : observeLit g j s = .next t) :
    observeLit g j (s.withReturned n l k) = .next (t.withReturned n l k) := by
  have hv : litValue (s.withReturned n l k) g j = litValue s g j := rfl
  unfold observeLit at h ⊢
  rw [hv]
  split at h <;> cases h <;> rfl

theorem observeLevel_withReturned (h : observeLevel s = .next t) :
    observeLevel (s.withReturned n l k) = .next (t.withReturned n l k) := by
  have hv : (s.withReturned n l k).brt = s.brt := rfl
  unfold observeLevel at h ⊢
  rw [hv]
  split at h <;> cases h <;> rfl

/-- An entry that ends in the same state but for the returned bytes, and receives none. -/
theorem sameButReturned_of_host (p : Params) (r : Host.Outcome State Fault Refusal) (hl : l.length = s.rx.length)
    (hk : k.length = s.busRx.length) (heff : HostEffect p s t) (hr : r = .next (t.withReturned n l k)) :
    ∃ u, r = .next u ∧ SameButReturned t u := by
  obtain ⟨hrx, hbus⟩ := hostEffect_received p s t heff
  exact ⟨_, hr, sameButReturned_withReturned n l k t (hrx ▸ hl) (hbus ▸ hk)⟩

theorem runInput_withReturned (p : Params) (e : Input) (hl : l.length = s.rx.length) (hk : k.length = s.busRx.length)
    (h : runInput p e s = .next t) :
    ∃ u, runInput p e (s.withReturned n l k) = .next u ∧ SameButReturned t u := by
  have host := sameButReturned_of_host n l k s t p (hl := hl) (hk := hk)
  cases e with
  | csAssert =>
    obtain ⟨hcs, rfl⟩ := csAssert_next s t h
    refine ⟨(s.withReturned n l k).openTransaction, ?_, by constructor <;> rfl, rfl, rfl, rfl, rfl, rfl⟩
    simp [runInput, csAssert, State.withReturned, hcs]
  | csDeassert =>
    obtain ⟨hcs, rfl⟩ := csDeassert_next s t h
    refine ⟨(s.withReturned n l k).closeTransaction, ?_, by constructor <;> rfl, rfl, rfl, rfl, hl, hk⟩
    simp [runInput, csDeassert, State.withReturned, hcs]
  | xfer m => exact transfer_withReturned n l k s t m hl hk h
  | busXfer b => exact transfer_withReturned n l k s t (flipByte b) hl hk h
  | bits bl =>
    obtain ⟨bs, hbs, rfl⟩ := transcribe_next bl s t h
    exact host _ (.send s.hDon s.hBrt _) (transcribe_of_wholeBytes bl bs _ hbs)
  | observeLit g j =>
    refine host _ ?_ (observeLit_withReturned n l k s t g j h)
    obtain ⟨v, -, rfl⟩ | ⟨-, rfl⟩ := observeLit_next g j s t h
    · exact .observe _
    · exact .observeFault _
  | observeLevel =>
    refine host _ ?_ (observeLevel_withReturned n l k s t h)
    obtain ⟨b, -, rfl⟩ | ⟨-, rfl⟩ := observeLevel_next s t h
    · exact .observe _
    · exact .observeFault _
  | op o => exact host _ (runOp_effect p o s t h) (runOp_withReturned n l k s t p o h)
  | maskKeys => exact hostMaskKeys_withReturned n l k s t p hl hk h
  | countKeys => exact host _ (hostCountKeys_effect p s t h) (hostCountKeys_withReturned n l k s t p h)
  | cursorNext => cases h; exact host _ (.cursor _ (Nat.mod_lt _ (numCols_pos p))) rfl
  | cursorHome => cases h; exact host _ (.cursor 0 (numCols_pos p)) rfl

end

/-- Settles O42: a quiet host steps to the same state but for the returned bytes; an entry of the input runs alike,
whichever it is. -/
theorem returnedBytesNeverReachTheChip : Obligations.ReturnedBytesNeverReachTheChip := by
  intro s t n l k hl hk h
  have alike : ∃ u, step (s.withReturned n l k) = .next u ∧ SameButReturned t u := by
    obtain ⟨hr, ⟨hin, rfl⟩ | ⟨e, rest, hin, hrun⟩⟩ := stepWith_next _ s t h
    · refine ⟨t.withReturned n l k, ?_, sameButReturned_withReturned n l k t hl hk⟩
      simp [step, stepWith, State.withReturned, hr, hin]
    · obtain ⟨u, hu, hsame⟩ := runInput_withReturned n l k (s.setInput rest) t _ e hl hk hrun
      exact ⟨u, (stepWith_input _ (s.withReturned n l k) e rest hr hin).trans hu, hsame⟩
  obtain ⟨u, hu, hsame⟩ := alike
  exact ⟨u, hu, hsame.chip, hsame.refused, hsame.faults, hsame.input, hsame.rx, hsame.busRx⟩

/-! ### Block writes -/

theorem sameLatches_trans (s t u : State) (h : SameLatches s t) (h' : SameLatches t u) : SameLatches s u where
  rw := h'.rw.trans h.rw
  ainc := h'.ainc.trans h.ainc
  test := h'.test.trans h.test
  don := h'.don.trans h.don
  brt := h'.brt.trans h.brt
  refused := h'.refused.trans h.refused
  faults := h'.faults.trans h.faults

theorem sameHost_trans (s t u : State) (h : SameHost s t) (h' : SameHost t u) : SameHost s u where
  hDon := h'.hDon.trans h.hDon
  hBrt := h'.hBrt.trans h.hBrt
  shadow := h'.shadow.trans h.shadow
  col := h'.col.trans h.col
  keys := h'.keys.trans h.keys

/-- From `s` to `t` the bytes `bs` were written to display memory from address `a` on, and no other byte of it changed,
nor a latch, nor a field of the host's own. -/
structure WritesBlock (a : Nat) (bs : List Byte) (s t : State) : Prop where
  written : ∀ (i : Nat) (h : i < bs.length), memRead t.dm (a + i) = .known bs[i]
  frame : ∀ b, b < a ∨ a + bs.length ≤ b → memRead t.dm b = memRead s.dm b
  latches : SameLatches s t
  host : SameHost s t

theorem writesBlock_nil (a : Nat) (s t : State) (hdm : t.dm = s.dm) (hl : SameLatches s t) (hh : SameHost s t) :
    WritesBlock a [] s t where
  written := nofun
  frame := fun b _ => by rw [hdm]
  latches := hl
  host := hh

/-- Blocks that lie one behind the other are one block. -/
theorem writesBlock_append (a : Nat) (bs cs : List Byte) (s t u : State) (h : WritesBlock a bs s t)
    (h' : WritesBlock (a + bs.length) cs t u) : WritesBlock a (bs ++ cs) s u where
  written i hi := by
    rw [List.length_append] at hi
    by_cases hlt : i < bs.length
    · rw [h'.frame _ (.inl (by omega)), h.written i hlt, List.getElem_append_left]
    · have := h'.written (i - bs.length) (by omega)
      rwa [show a + bs.length + (i - bs.length) = a + i by omega, ← List.getElem_append_right (as := bs)] at this
      omega
  frame b hb := by
    rw [List.length_append] at hb
    rw [h'.frame b (by omega), h.frame b (by omega)]
  latches := sameLatches_trans s t u h.latches h'.latches
  host := sameHost_trans s t u h.host h'.host

/-- The chip takes data bytes in write mode, the next one at address `a`, and the host does `es` next. -/
structure Writing (s : State) (a : Nat) (es : List Input) : Prop where
  refused : s.refused = none
  cs : s.cs = .asserted
  seq : s.seq = .addrData
  rw : s.rw = .known .write
  ptr : ∀ p : Fin 17, p.val = a → s.ptr = .known p
  input : s.input = es

theorem step_writing (s : State) (a : Fin 16) (d : Byte) (es : List Input) (h : Writing s a.val (.xfer d :: es)) :
    ∃ t, step s = .next t ∧ WritesBlock a.val [d] s t ∧ Writing t (a.val + 1) es := by
  have hdec : decode s.seq d = .ok (.data d) := by rw [h.seq]; rfl
  refine ⟨_, step_xfer s _ d _ es h.refused h.input h.cs hdec (.data d .write a h.rw (h.ptr _ rfl)), ?_, ?_⟩
  · refine ⟨fun i hi => ?_, fun b hb => ?_, by constructor <;> simp, by constructor <;> simp⟩
    · obtain rfl : i = 0 := by simpa using hi
      simp
    · have hne : b ≠ a.val := by simp at hb; omega
      simpa using memRead_memWrite_other s.dm a b d hne
  · refine ⟨by simpa using h.refused, by simpa using h.cs, by simpa using h.seq, by simpa using h.rw, fun p hp => ?_,
      by simp⟩
    obtain rfl : p = ptrAfter a := Fin.ext hp
    rfl

/-- The data bytes of a block that fits are written one after the other (R161, R170). -/
theorem run_writing (bs : List Byte) (a : Nat) (s : State) (es : List Input) (h : Writing s a (bs.map .xfer ++ es))
    (hfit : a + bs.length ≤ 16) :
    ∃ t : State, Sys2Proof.core.run bs.length s = .next t ∧ WritesBlock a bs s t ∧ Writing t (a + bs.length) es := by
  induction bs generalizing a s with
  | nil => exact ⟨s, rfl, writesBlock_nil a s s rfl (by constructor <;> rfl) (by constructor <;> rfl), h⟩
  | cons d bs ih =>
    rw [List.length_cons] at hfit
    obtain ⟨u, hu, hwu, hu'⟩ := step_writing s ⟨a, by omega⟩ d _ h
    obtain ⟨t, ht, hwt, ht'⟩ := ih (a + 1) u hu' (by omega)
    refine ⟨t, run_of_step _ _ _ _ hu ht, writesBlock_append a [d] bs s u t hwu hwt, ?_⟩
    rwa [List.length_cons, ← Nat.add_assoc, Nat.add_right_comm]

theorem decode_addr (a : BitVec 4) : decode .expectCmd (encode (.addr a)) = .ok (.addr a) := by revert a; decide

theorem step_addr (s : State) (a : BitVec 4) (es : List Input) (hr : s.refused = none)
    (hi : s.input = .xfer (encode (.addr a)) :: es) (hcs : s.cs = .asserted) (hq : s.seq = .expectCmd) :
    step s = .next ((((s.setInput es).setPtr (ptrOf a)).setSeq .addrData).reply (lineDraw s)) :=
  step_xfer s _ _ (.addr a) es hr hi hcs (hq ▸ decode_addr a) (.addr a)

/-- Select and `ADDR a`: the data bytes come next (R111, R136). -/
theorem run_openBlock (s : State) (a : BitVec 4) (bs : List Byte) (rest : List Input) (hr : s.refused = none)
    (hcs : s.cs = .deasserted) (hrw : s.rw = .known .write) (hi : s.input = blockEvents a bs ++ rest) :
    ∃ t : State, Sys2Proof.core.run 2 s = .next t ∧ WritesBlock a.toNat [] s t ∧
      Writing t a.toNat (bs.map .xfer ++ .csDeassert :: rest) := by
  have hi' : s.input = .csAssert :: .xfer (encode (.addr a)) :: (bs.map .xfer ++ .csDeassert :: rest) := by
    simp [hi, blockEvents, xact]
  refine ⟨_, run_of_step 1 _ _ _ (step_csAssert s _ hr hi' hcs)
    (run_of_step 0 _ _ _ (step_addr _ a _ (by simpa using hr) rfl rfl rfl) rfl), ?_, ?_⟩
  · exact writesBlock_nil _ _ _ (by simp) (by constructor <;> simp) (by constructor <;> simp)
  · refine ⟨by simpa using hr, by simp, by simp, by simpa using hrw, fun p hp => ?_, by simp⟩
    obtain rfl : p = ptrOf a := Fin.ext hp
    simp

/-- A block write in write mode that fits, from selection to deselection (R170). -/
theorem run_block (s : State) (a : BitVec 4) (bs : List Byte) (rest : List Input) (hr : s.refused = none)
    (hcs : s.cs = .deasserted) (hrw : s.rw = .known .write) (hi : s.input = blockEvents a bs ++ rest)
    (hfit : a.toNat + bs.length ≤ 16) :
    ∃ t : State, Sys2Proof.core.run (bs.length + 3) s = .next t ∧ WritesBlock a.toNat bs s t ∧
      (∀ p : Fin 17, p.val = a.toNat + bs.length → t.ptr = .known p) ∧ t.cs = .deasserted ∧ t.seq = .idle ∧
      t.input = rest := by
  obtain ⟨u, hu, hwu, hu'⟩ := run_openBlock s a bs rest hr hcs hrw hi
  obtain ⟨v, hv, hwv, hv'⟩ := run_writing bs a.toNat u _ hu' hfit
  have hclose := step_csDeassert v rest hv'.refused hv'.input hv'.cs
  refine ⟨(v.setInput rest).closeTransaction, ?_, ?_, hv'.ptr, rfl, rfl, rfl⟩
  · rw [show bs.length + 3 = 2 + (bs.length + 1) by omega, run_add _ _ _ _ hu, run_add _ _ _ _ hv]
    exact run_of_step 0 _ _ _ hclose rfl
  · have hw := writesBlock_append _ [] bs s u v hwu hwv
    exact ⟨hw.written, hw.frame, sameLatches_trans _ v _ hw.latches (by constructor <;> rfl),
      sameHost_trans _ v _ hw.host (by constructor <;> rfl)⟩

/-! ### The flush of a board operation -/

/-- A block that flushes the change of the shadow from `old` to `new`: it fits, its bytes are the new shadow's, and no
byte outside it changed (R243). -/
structure FlushesEdit (old new : Memory) (a : BitVec 4) (bs : List Byte) : Prop where
  fits : a.toNat + bs.length ≤ 16
  holds : ∀ (i : Nat) (h : i < bs.length), memRead new (a.toNat + i) = .known bs[i]
  frame : ∀ b : Fin 16, b.val < a.toNat ∨ a.toNat + bs.length ≤ b.val → memRead new b.val = memRead old b.val

/-- Display memory that was like the old shadow is like the new one once the block is written. -/
theorem reads_alike_of_flush (old new : Memory) (a : BitVec 4) (bs : List Byte) (s t : State)
    (hf : FlushesEdit old new a bs) (hw : WritesBlock a.toNat bs s t)
    (hs : ∀ b : Fin 16, memRead s.dm b.val = memRead old b.val) (b : Fin 16) :
    memRead t.dm b.val = memRead new b.val := by
  by_cases hout : b.val < a.toNat ∨ a.toNat + bs.length ≤ b.val
  · rw [hw.frame _ hout, hs, hf.frame b hout]
  · obtain ⟨i, hi⟩ : ∃ i, b.val = a.toNat + i := ⟨b.val - a.toNat, by omega⟩
    rw [hi, hw.written i (by omega), hf.holds i (by omega)]

/-- An edit of the shadow that completes lists an address, and changes no byte at an address it does not list (R243). -/
def EditsListed (sh : Memory) (e : ShadowEdit) : Prop :=
  ∀ sh' t, e = some (sh', t) → t ≠ [] ∧ ∀ b : Nat, (∀ a ∈ t, b ≠ a.val) → memRead sh' b = memRead sh b

theorem editGrid_listed (f : BitVec 16 → BitVec 16) (g : Fin 8) (sh : Memory) : EditsListed sh (editGrid f g sh) := by
  intro sh' t h
  unfold editGrid at h
  split at h
  · cases h
  · cases h
    refine ⟨by simp, fun b hb => memRead_putGridWord_other _ _ _ _ ?_⟩
    have heven := hb (evenAddr g) (by simp)
    have hodd := hb (oddAddr g) (by simp)
    rw [evenAddr_val] at heven
    rw [oddAddr_val] at hodd
    omega

theorem map_editBit_listed (sh : Memory) (a : Fin 16) (k : Fin 8) (v : Bool) :
    EditsListed sh ((editBit sh a k v).map fun sh' => (sh', [a])) := by
  intro sh' t h
  unfold editBit at h
  split at h
  · cases h
  · cases h
    exact ⟨by simp, fun b hb => memRead_memWrite_other _ _ _ _ (hb a (by simp))⟩

theorem charInSegments_listed (p : Params) (c : Nat) (ch : Byte) (sh : Memory) :
    EditsListed sh (charInSegments p c ch sh) := by
  intro sh' t h
  obtain ⟨sh'', hsh, heq⟩ := Option.map_eq_some_iff.1 h
  cases heq
  exact ⟨by simp [segments],
    fun b hb => editSegments_frame _ _ _ _ _ _ hsh b fun i hi => hb _ (List.mem_map_of_mem hi)⟩

theorem writeChar_listed (p : Params) (c : Nat) (ch : Byte) (sh : Memory) : EditsListed sh (writeChar p c ch sh) := by
  unfold writeChar
  split
  · rw [charInGrid_eq_editGrid]; exact editGrid_listed _ _ _
  · exact charInSegments_listed p c ch sh
  · rw [charInGrid_eq_editGrid]; exact editGrid_listed _ _ _

theorem setPoint_listed (p : Params) (c : Nat) (sh : Memory) : EditsListed sh (setPoint p c sh) := by
  unfold setPoint
  split
  · rw [pointInGrid_eq_editBit]; exact map_editBit_listed _ _ _ _
  · exact map_editBit_listed _ _ _ _
  · rw [pointInGrid_eq_editBit]; exact map_editBit_listed _ _ _ _

/-- The flush of an edit that lists an address is one block, and it flushes the edit (R243). -/
theorem flushEvents_flushesEdit (old new : Memory) (t : List (Fin 16)) (es : List Input) (ht : t ≠ [])
    (hframe : ∀ b : Nat, (∀ a ∈ t, b ≠ a.val) → memRead new b = memRead old b) (h : flushEvents new t = some es) :
    ∃ a bs, es = blockEvents a bs ∧ FlushesEdit old new a bs := by
  obtain ⟨c, t, rfl⟩ := List.exists_cons_of_ne_nil ht
  obtain ⟨hlo, hle⟩ := lowest_spec c t
  obtain ⟨hhi, hge⟩ := highest_spec c t
  rw [flushEvents_range new _ _ _ hlo hhi fun b hb => ⟨hle b hb, hge b hb⟩] at h
  obtain ⟨bs, hbs, rfl⟩ := Option.map_eq_some_iff.1 h
  obtain ⟨hlen, hread⟩ := readRange_some _ _ _ _ hbs
  have hval : (BitVec.ofNat 4 (lowest c t).val).toNat = (lowest c t).val := Nat.mod_eq_of_lt (lowest c t).isLt
  have horder : (lowest c t).val ≤ (highest c t).val := hle _ hhi
  refine ⟨_, bs, rfl, ?_, ?_, ?_⟩
  · rw [hval]; omega
  · rwa [hval]
  · intro b hb
    rw [hval] at hb
    refine hframe b.val fun a ha he => ?_
    have h1 : (lowest c t).val ≤ a.val := hle a ha
    have h2 : a.val ≤ (highest c t).val := hge a ha
    omega

theorem clearScreenEvents_eq : clearScreenEvents = blockEvents 0 (List.replicate 16 0) := by decide

theorem zeroMemory_flushesEdit (old : Memory) : FlushesEdit old zeroMemory 0 (List.replicate 16 0) where
  fits := by decide
  holds i hi := by
    rw [List.getElem_replicate]
    simpa using memRead_zeroMemory ⟨i, by simpa using hi⟩
  frame b hb := by
    have := b.isLt
    simp at hb
    omega

/-- What an adapter operation does after its flush: nothing, or one move of the cursor (R246, R259). -/
inductive CursorMove : List Input → Prop where
  | stay : CursorMove []
  | next : CursorMove [.cursorNext]
  | home : CursorMove [.cursorHome]

theorem run_cursorMove (s : State) (es : List Input) (h : CursorMove es) (hr : s.refused = none) (hi : s.input = es) :
    ∃ c, Sys2Proof.core.run es.length s = .next ((s.setInput []).setCol c) := by
  cases h with
  | stay =>
    have hs : s.setInput [] = s := by rw [State.setInput, ← hi]
    exact ⟨s.col, by rw [hs]; rfl⟩
  | next => exact ⟨_, run_of_step 0 _ _ _ (stepWith_input _ s _ _ hr hi) rfl⟩
  | home => exact ⟨_, run_of_step 0 _ _ _ (stepWith_input _ s _ _ hr hi) rfl⟩

/-- An admitted adapter operation moves the cursor at most, or changes the shadow and has a block to send that flushes
the change, before a move of the cursor (R243 to R259). -/
inductive BoardEffect (s : State) : State → Prop where
  | quiet (c : Nat) : BoardEffect s (s.setCol c)
  | flush (sh : Memory) (a : BitVec 4) (bs : List Byte) (after : List Input) (hf : FlushesEdit s.shadow sh a bs)
    (hafter : CursorMove after) : BoardEffect s ((s.setShadow sh).issue (blockEvents a bs ++ after))

theorem commitEdit_boardEffect (e : ShadowEdit) (after : List Input) (s t : State) (he : EditsListed s.shadow e)
    (hafter : CursorMove after) (h : commitEdit e after s = .next t) : BoardEffect s t := by
  obtain ⟨sh, l, es, hsh, hes, rfl⟩ := commitEdit_next e after s t h
  obtain ⟨hne, hframe⟩ := he sh l hsh
  obtain ⟨a, bs, rfl, hf⟩ := flushEvents_flushesEdit s.shadow sh l es hne hframe hes
  exact .flush sh a bs after hf hafter

theorem boardPutc_boardEffect (p : Params) (ch : Byte) (s t : State) (h : boardPutc p ch s = .next t) :
    BoardEffect s t := by
  unfold boardPutc at h
  split at h
  · cases h; exact .quiet 0
  · split at h
    · split at h
      · cases h; exact .quiet s.col
      · exact commitEdit_boardEffect _ _ _ _ (setPoint_listed _ _ _) .stay h
    · split at h
      · exact commitEdit_boardEffect _ _ _ _ (writeChar_listed _ _ _ _) .next h
      · cases h; exact .quiet s.col

theorem boardIcon_boardEffect (f : BitVec 16 → BitVec 16) (id : Nat) (s t : State) (h : boardIcon f id s = .next t) :
    BoardEffect s t := by
  unfold boardIcon at h
  split at h
  · exact commitEdit_boardEffect _ _ _ _ (editGrid_listed _ _ _) .stay h
  · exact absurd h (refuse_ne_next _ _ _)

theorem runOp_boardEffect (p : Params) (o : HostOp) (s t : State) (ho : isDriverOp o = false)
    (h : runOp p o s = .next t) : BoardEffect s t := by
  cases o with
  | putc ch => exact boardPutc_boardEffect p ch s t h
  | locate c => cases h; exact .quiet _
  | writeCell c ch => exact commitEdit_boardEffect _ _ _ _ (writeChar_listed _ _ _ _) .stay h
  | setIcon id => exact boardIcon_boardEffect _ id s t h
  | clrIcon id => exact boardIcon_boardEffect _ id s t h
  | clearAll =>
    cases h
    rw [clearScreenEvents_eq]
    exact .flush zeroMemory 0 _ _ (zeroMemory_flushesEdit _) .home
  | customGlyph => exact absurd h (refuse_ne_next _ _ _)
  | _ => cases ho

/-- Settles O60: an operation that only moves the cursor leaves nothing to send; of any other, the block it sends covers
every byte of the shadow that changed, and the cursor's move after it touches neither memory. -/
theorem boardKeepsDisplayAndShadowAlike : Obligations.BoardKeepsDisplayAndShadowAlike := by
  intro s t o ho hr hcs hrw hi halike h
  have hop : runOp Config.params o (s.setInput []) = .next t := (stepWith_input _ s _ _ hr hi).symm.trans h
  cases runOp_boardEffect _ o _ t ho hop with
  | quiet c => exact ⟨_, rfl, rfl, hcs, rfl, halike⟩
  | flush sh a bs after hf hafter =>
    obtain ⟨u, hu, hwu, -, hucs, -, hui⟩ := run_block (((s.setInput []).setShadow sh).issue (blockEvents a bs ++ after))
      a bs after hr hcs hrw (by simp) hf.fits
    obtain ⟨c, hc⟩ := run_cursorMove u after hafter (hwu.latches.refused.trans hr) hui
    refine ⟨(u.setInput []).setCol c, ?_, rfl, hucs, hwu.host.shadow, fun b => ?_⟩
    · have hlen : (blockEvents a bs ++ after).length = bs.length + 3 + after.length := by
        simp [blockEvents, xact]
        omega
      rw [State.issue_input, State.setShadow_input, State.setInput_input, List.append_nil, hlen, run_add _ _ _ _ hu, hc]
    · change memRead u.dm b.val = memRead u.shadow b.val
      rw [show u.shadow = sh from hwu.host.shadow]
      exact reads_alike_of_flush s.shadow sh a bs _ u hf hwu halike b

end Sys2Proof.Machine
end

section
/-!
PROOFS of the encoding family: the fields of a command byte as arithmetic on it, the class decoders and the positions of
the rows, the round trip of decoder and encoder, the refused command bytes, and the bytes on the bus.
-/

namespace Sys2Proof.Machine

/-! ### The fields of a command byte, as arithmetic on the byte -/

theorem getLsbD_eq_decide (c : Byte) (k : Nat) : c.getLsbD k = decide (c.toNat / 2 ^ k % 2 = 1) := by
  rw [← BitVec.testBit_toNat, Nat.testBit_eq_decide_div_mod_eq]

/-- Bits 7:6 (R81). -/
theorem classBits_eq_iff (c : Byte) (k : BitVec 2) : classBits c = k ↔ c.toNat / 64 = k.toNat := by
  have hc : c.toNat < 256 := c.isLt
  rw [classBits, ← BitVec.toNat_inj, BitVec.extractLsb'_toNat, Nat.shiftRight_eq_div_pow]
  omega

/-- Bits 5:4 (R83 to R85). -/
theorem reservedBits_eq_zero_iff (c : Byte) : reservedBits c = 0 ↔ c.toNat / 16 % 4 = 0 := by
  rw [reservedBits, ← BitVec.toNat_inj, BitVec.extractLsb'_toNat, Nat.shiftRight_eq_div_pow]
  rfl

theorem addrField_eq_ofNat (c : Byte) : addrField c = BitVec.ofNat 4 (c.toNat % 16) := by
  rw [← BitVec.toNat_inj, addrField, BitVec.extractLsb'_toNat, BitVec.toNat_ofNat, Nat.mod_mod]
  rfl

theorem brightnessField_eq_ofNat (c : Byte) : brightnessField c = BitVec.ofNat 3 (c.toNat % 8) := by
  rw [← BitVec.toNat_inj, brightnessField, BitVec.extractLsb'_toNat, BitVec.toNat_ofNat, Nat.mod_mod]
  rfl

/-! ### The class of a command byte -/

theorem decodeCommand_class00 (c : Byte) (h : c.toNat / 64 = 0) :
    decodeCommand c = .reservedClass00 (c.extractLsb' 0 6) := by
  simp [decodeCommand, classBits_eq_iff, h]

theorem decodeCommand_class01 (c : Byte) (h : c.toNat / 64 = 1) : decodeCommand c = decodeDset c := by
  simp [decodeCommand, classBits_eq_iff, h]

theorem decodeCommand_class10 (c : Byte) (h : c.toNat / 64 = 2) : decodeCommand c = decodeDctrl c := by
  simp [decodeCommand, classBits_eq_iff, h]

theorem decodeCommand_class11 (c : Byte) (h : c.toNat / 64 = 3) : decodeCommand c = decodeAddr c := by
  simp [decodeCommand, classBits_eq_iff, h]

theorem class_lt_four (c : Byte) : c.toNat / 64 < 4 := by
  have hc : c.toNat < 256 := c.isLt
  omega

/-! ### Refusals and admitted forms, class by class -/

/-- The reserved bits, then `FIX`, then `TEST` (R91): the two rows for reserved bits refuse alike. -/
theorem commandRefusal_decodeDset (c : Byte) :
    commandRefusal (decodeDset c) =
      if c.toNat / 16 % 4 ≠ 0 ∨ c.toNat % 2 ≠ 0 then some .reservedBits
      else if c.toNat / 4 % 2 = 1 then some .fixedMode
      else if c.toNat / 8 % 2 = 1 then some .testMode
      else none := by
  simp only [decodeDset, fixBit, bit3, rdBit, getLsbD_eq_decide, ne_eq, reservedBits_eq_zero_iff, decide_eq_true_eq]
  obtain hbit0 | hbit0 := Nat.mod_two_eq_zero_or_one c.toNat
  · by_cases hres : c.toNat / 16 % 4 = 0
    · simp only [hbit0, hres]
      split_ifs <;> simp_all [commandRefusal]
    · simp [hbit0, hres, commandRefusal]
  · simp [hbit0, commandRefusal]

theorem decodeDset_of_admitted (c : Byte) (h : commandRefusal (decodeDset c) = none) :
    decodeDset c = if c.toNat / 2 % 2 = 1 then .dsetR else .dsetW := by
  have hrd : rdBit c = true ↔ c.toNat / 2 % 2 = 1 := by rw [rdBit, getLsbD_eq_decide, decide_eq_true_iff]; rfl
  rw [← if_congr hrd rfl rfl]
  unfold decodeDset at h ⊢
  split_ifs at h ⊢ <;> simp [commandRefusal] at h ⊢

theorem commandRefusal_decodeDctrl (c : Byte) :
    commandRefusal (decodeDctrl c) = if c.toNat / 16 % 4 ≠ 0 then some .reservedBits else none := by
  simp only [decodeDctrl, ne_eq, reservedBits_eq_zero_iff]
  split_ifs <;> rfl

theorem decodeDctrl_of_admitted (c : Byte) (h : commandRefusal (decodeDctrl c) = none) :
    decodeDctrl c = .dctrl (decide (c.toNat / 8 % 2 = 1)) (BitVec.ofNat 3 (c.toNat % 8)) := by
  unfold decodeDctrl at h ⊢
  split_ifs at h ⊢
  · cases h
  · rw [bit3, getLsbD_eq_decide, brightnessField_eq_ofNat]
    rfl

theorem commandRefusal_decodeAddr (c : Byte) :
    commandRefusal (decodeAddr c) = if c.toNat / 16 % 4 ≠ 0 then some .reservedBits else none := by
  simp only [decodeAddr, ne_eq, reservedBits_eq_zero_iff]
  split_ifs <;> rfl

theorem decodeAddr_of_admitted (c : Byte) (h : commandRefusal (decodeAddr c) = none) :
    decodeAddr c = .addr (BitVec.ofNat 4 (c.toNat % 16)) := by
  unfold decodeAddr at h ⊢
  split_ifs at h ⊢
  · cases h
  · rw [addrField_eq_ofNat]

/-- The decoder's refusals are those of R91. -/
theorem commandRefusal_decodeCommand (c : Byte) : commandRefusal (decodeCommand c) = refusalByArithmetic c.toNat := by
  have hclass : c.toNat / 64 < 4 := class_lt_four c
  interval_cases h : c.toNat / 64
  · simp [decodeCommand_class00 c h, refusalByArithmetic, h, commandRefusal]
  · simp [decodeCommand_class01 c h, refusalByArithmetic, h, commandRefusal_decodeDset]
  · simp [decodeCommand_class10 c h, refusalByArithmetic, h, commandRefusal_decodeDctrl]
  · simp [decodeCommand_class11 c h, refusalByArithmetic, h, commandRefusal_decodeAddr]

/-- The admitted commands have three forms (R91). -/
theorem decodeCommand_of_admitted (c : Byte) (hadm : commandRefusal (decodeCommand c) = none) :
    decodeCommand c =
      (if c.toNat / 64 = 1 then (if c.toNat / 2 % 2 = 1 then .dsetR else .dsetW)
      else if c.toNat / 64 = 2 then .dctrl (decide (c.toNat / 8 % 2 = 1)) (BitVec.ofNat 3 (c.toNat % 8))
      else .addr (BitVec.ofNat 4 (c.toNat % 16))) := by
  have hclass : c.toNat / 64 < 4 := class_lt_four c
  interval_cases h : c.toNat / 64
  · rw [decodeCommand_class00 c h] at hadm
    cases hadm
  · rw [decodeCommand_class01 c h] at hadm ⊢
    exact decodeDset_of_admitted c hadm
  · rw [decodeCommand_class10 c h] at hadm ⊢
    exact decodeDctrl_of_admitted c hadm
  · rw [decodeCommand_class11 c h] at hadm ⊢
    exact decodeAddr_of_admitted c hadm

/-- Settles O3: the class of the byte by bits 7:6, then the refusal and the admitted form of each class. -/
theorem commandDecodeFollowsThePseudocode : Obligations.CommandDecodeFollowsThePseudocode :=
  fun c => ⟨commandRefusal_decodeCommand c, fun h =>
    decodeCommand_of_admitted c ((commandRefusal_decodeCommand c).trans h)⟩

/-! ### Where a row's byte stands -/

@[simp] theorem accepts_idle (i : Instr) : accepts .idle i = false := by cases i <;> rfl

@[simp] theorem accepts_closed (i : Instr) : accepts .closed i = false := by cases i <;> rfl

@[simp] theorem accepts_addrData_iff (i : Instr) : accepts .addrData i = true ↔ ∃ d, i = .data d := by
  cases i <;> simp [accepts]

@[simp] theorem accepts_keyRead_iff (k : Fin 5) (i : Instr) : accepts (.keyRead k) i = true ↔ i = .rdkey := by
  cases i <;> simp [accepts]

@[simp] theorem accepts_expectCmd_iff (i : Instr) :
    accepts .expectCmd i = true ↔ (∀ d, i ≠ .data d) ∧ i ≠ .rdkey := by
  cases i <;> simp [accepts]

theorem decode_keyRead_ok (k : Fin 5) (m : Byte) (i : Instr) (h : decode (.keyRead k) m = .ok i) :
    m = 0xFF ∧ i = .rdkey := by
  by_cases hm : m = 0xFF
  · subst hm; cases h; exact ⟨rfl, rfl⟩
  · rw [decode_keyRead_other k m hm] at h
    split at h <;> cases h

/-! ### Decoding an encoded instruction -/

/-- Each command row's pattern leads the decoder to that row, and its fields to the row's operands (R83 to R85, R89). -/
theorem decodeCommand_encode (i : Instr) (hw : i.WellFormed) (hq : accepts .expectCmd i = true) :
    decodeCommand (encode i) = i := by
  cases i with
  | dsetW => decide
  | dsetR => decide
  | addr a => clear hw hq; revert a; decide
  | dctrl n b => clear hw hq; revert n b; decide
  | data d => cases hq
  | rdkey => cases hq
  | reservedClass00 x => clear hw hq; revert x; decide
  | dsetReservedBit0 x => clear hw hq; revert x; decide
  | dsetReservedBits54 s x => clear hq; revert s x; decide
  | dsetFixedAddress t r => clear hw hq; revert t r; decide
  | dsetTestMode r => clear hw hq; revert r; decide
  | addrReservedBits54 s a => clear hq; revert s a; decide
  | dctrlReservedBits54 s n b => clear hq; revert s n b; decide

/-- Settles O1, by the positions of a transaction: only the first byte has more than one row. -/
theorem decodeOfEncodeIsTheInstruction : Obligations.DecodeOfEncodeIsTheInstruction := by
  intro i q hw hq
  cases q with
  | idle => simp at hq
  | expectCmd => exact congrArg Except.ok (decodeCommand_encode i hw hq)
  | closed => simp at hq
  | addrData =>
    obtain ⟨d, rfl⟩ := (accepts_addrData_iff i).1 hq
    rfl
  | keyRead k =>
    obtain rfl := (accepts_keyRead_iff k i).1 hq
    rfl

/-! ### Encoding a decoded instruction -/

theorem decodeCommand_ne_rdkey (c : Byte) : decodeCommand c ≠ .rdkey := by
  unfold decodeCommand decodeDset decodeDctrl decodeAddr
  split_ifs <;> simp

/-- Bit 0 of a data-setting byte in the row for bits 5:4 is clear, since a set one is the row before it (R135). -/
theorem decodeDset_wellFormed (c : Byte) : (decodeDset c).WellFormed := by
  unfold decodeDset
  split_ifs with hbit0 hres
  · rfl
  · simp_all [Instr.WellFormed, Instr.wellFormed]
  all_goals rfl

theorem decodeDctrl_wellFormed (c : Byte) : (decodeDctrl c).WellFormed := by
  unfold decodeDctrl
  split_ifs with hres
  · simpa [Instr.WellFormed, Instr.wellFormed] using hres
  · rfl

theorem decodeAddr_wellFormed (c : Byte) : (decodeAddr c).WellFormed := by
  unfold decodeAddr
  split_ifs with hres
  · simpa [Instr.WellFormed, Instr.wellFormed] using hres
  · rfl

theorem decodeCommand_wellFormed (c : Byte) : (decodeCommand c).WellFormed := by
  unfold decodeCommand
  split_ifs
  · rfl
  · exact decodeDset_wellFormed c
  · exact decodeDctrl_wellFormed c
  · exact decodeAddr_wellFormed c

/-- Settles O2, by the positions of a transaction: a command byte is the encoding of its row, a data byte is kept whole,
and a read byte is 0xFF. -/
theorem decodedByteEncodesBack : Obligations.DecodedByteEncodesBack := by
  intro q m i h
  cases q with
  | idle => cases h
  | expectCmd =>
    obtain rfl : decodeCommand m = i := Except.ok.inj h
    have hpos := (accepts_expectCmd_iff _).2 ⟨decodeCommand_ne_data m, decodeCommand_ne_rdkey m⟩
    exact ⟨decodeCommand_wellFormed m, hpos, encode_decodeCommand m⟩
  | closed => cases h
  | addrData =>
    obtain rfl : .data m = i := Except.ok.inj h
    exact ⟨rfl, rfl, rfl⟩
  | keyRead k =>
    obtain ⟨rfl, rfl⟩ := decode_keyRead_ok k m i h
    exact ⟨rfl, rfl, rfl⟩

/-! ### Words written out from the formats -/

/-- Settles O4: the decoder evaluated on each word. -/
theorem wordsDecodeAsWritten : Obligations.WordsDecodeAsWritten := by
  unfold Obligations.WordsDecodeAsWritten
  decide

/-! ### Refused command bytes -/

/-- A refused row stops with its code, in any state (R281). -/
theorem exec_of_commandRefusal (i : Instr) (r : RefusalCode) (s : State) (h : commandRefusal i = some r) :
    exec i s = refuse r s := by
  cases i with
  | dsetW => cases h
  | dsetR => cases h
  | addr a => cases h
  | dctrl n b => cases h
  | data d => cases h
  | rdkey => cases h
  | _ => cases h; rfl

/-- A first byte of a transaction that R91 refuses stops with R91's code. -/
theorem transfer_of_refusalByArithmetic (c : Byte) (r : RefusalCode) (s : State) (hcs : s.cs = .asserted)
    (hq : s.seq = .expectCmd) (h : refusalByArithmetic c.toNat = some r) : transfer c s = refuse r s := by
  have hd : decode s.seq c = .ok (decodeCommand c) := by rw [hq]; rfl
  rw [transfer_ok c s _ hcs hd]
  exact exec_of_commandRefusal _ r s ((commandRefusal_decodeCommand c).trans h)

theorem refusalByArithmetic_class00 (n : Nat) (h : n < 0x40) : refusalByArithmetic n = some .reservedCmd := by
  rw [refusalByArithmetic, if_pos (by omega)]

/-- A data-setting byte with bits 5:4 set (R135). -/
theorem refusalByArithmetic_dsetReservedBits (n : Nat) (hlo : 0x50 ≤ n) (hhi : n ≤ 0x7F) :
    refusalByArithmetic n = some .reservedBits := by
  rw [refusalByArithmetic, if_neg (by omega), if_pos (by omega), if_pos (.inl (by omega))]

/-- A display-control or address-setting byte with bits 5:4 set (R137, R139). -/
theorem refusalByArithmetic_reservedBits (n : Nat) (hclass : 2 ≤ n / 64) (hres : n / 16 % 4 ≠ 0) :
    refusalByArithmetic n = some .reservedBits := by
  rw [refusalByArithmetic, if_neg (by omega), if_neg (by omega), if_pos hres]

/-- Settles O18: the code of each list and range by R91, and the stop with that code. -/
theorem refusedCommandBytes : Obligations.RefusedCommandBytes := by
  intro c s hcs hq stop
  have hstop (r : RefusalCode) (h : refusalByArithmetic c.toNat = some r) : transfer c s = stop r :=
    transfer_of_refusalByArithmetic c r s hcs hq h
  have hlt : c.toNat < 256 := c.isLt
  refine ⟨fun h => hstop _ ?_, fun h => hstop _ ?_, fun h => hstop _ ?_, fun h => hstop _ ?_, fun h => hstop _ ?_,
    fun h => hstop _ ?_⟩
  · exact refusalByArithmetic_class00 _ h
  · obtain h | ⟨hlo, hhi⟩ := h
    · fin_cases h <;> rfl
    · exact refusalByArithmetic_dsetReservedBits _ hlo hhi
  · fin_cases h <;> rfl
  · fin_cases h <;> rfl
  · exact refusalByArithmetic_reservedBits _ (by omega) (by omega)
  · exact refusalByArithmetic_reservedBits _ (by omega) (by omega)

/-! ### Bytes on the bus -/

/-- The reversal of the 4 bits of `n` below 16, as arithmetic (R95). -/
def flip4 (n : Nat) : Nat := 8 * (n % 2) + 4 * (n / 2 % 2) + 2 * (n / 4 % 2) + n / 8 % 2

/-- Bit reversal of a byte exchanges its halves and reverses each (R10). -/
theorem flipByte_toNat (b : Byte) : (flipByte b).toNat = flip4 (b.toNat / 16) + 16 * flip4 (b.toNat % 16) := by
  revert b; decide

theorem encode_addr_toNat (a : BitVec 4) : (encode (.addr a)).toNat = 0xC0 + a.toNat := by revert a; decide

theorem encode_dctrl_toNat (n : Bool) (b : BitVec 3) : (encode (.dctrl n b)).toNat = 0x80 + 8 * n.toNat + b.toNat := by
  revert n b; decide

/-- The bus byte of a chip byte given by its halves. -/
theorem flipByte_toNat_of_halves (b : Byte) (hi lo : Nat) (hlo : lo < 16) (hb : b.toNat = 16 * hi + lo) :
    (flipByte b).toNat = flip4 hi + 16 * flip4 lo := by
  rw [flipByte_toNat, show b.toNat / 16 = hi by omega, show b.toNat % 16 = lo by omega]

/-- Settles O5: the halves of each chip byte, exchanged and reversed. -/
theorem busBytesOfCommands : Obligations.BusBytesOfCommands := by
  refine ⟨by decide, by decide, fun a => ⟨encode_addr_toNat a, ?_⟩, fun n b => ⟨encode_dctrl_toNat n b, ?_⟩⟩
  · exact flipByte_toNat_of_halves _ 12 _ a.isLt (encode_addr_toNat a)
  · have hn : n.toNat < 2 := n.toNat_lt
    have hb : b.toNat < 8 := b.isLt
    exact flipByte_toNat_of_halves _ 8 _ (by omega) (by rw [encode_dctrl_toNat]; omega)

/-! ### A placed word -/

theorem decode_of_decodeTableWord (nbits w : Nat) (i : Instr) (h : decodeTableWord nbits w = some i) :
    decode (tableSeq (BitVec.ofNat 8 (w % 2 ^ nbits))) (BitVec.ofNat 8 (w % 2 ^ nbits)) = .ok i := by
  unfold decodeTableWord at h
  dsimp only at h
  split at h
  · rename_i j hj
    cases h
    exact hj
  · cases h

/-- Settles O8: the placed byte is the next entry of the input, exchanged at the word's position. -/
theorem placedWordRunsNext : Obligations.PlacedWordRunsNext :=
  fun s w i hr h =>
    step_of_exchanged (s.withFetchWord 8 w) _ s.input _ i hr rfl rfl rfl (decode_of_decodeTableWord 8 w i h)

end Sys2Proof.Machine
end

section
/-!
PROOFS of the transport family: chip-select, a byte at each position of a transaction, and the byte the host receives
for it.
-/

namespace Sys2Proof.Machine

/-! ### Chip-select -/

theorem csAssert_of_deasserted (s : State) (hcs : s.cs = .deasserted) : csAssert s = .next s.openTransaction := by
  rw [csAssert, hcs]

theorem csAssert_of_asserted (s : State) (hcs : s.cs = .asserted) : csAssert s = refuse .csProtocol s := by
  rw [csAssert, hcs]

theorem csDeassert_of_asserted (s : State) (hcs : s.cs = .asserted) : csDeassert s = .next s.closeTransaction := by
  rw [csDeassert, hcs]

theorem csDeassert_of_deasserted (s : State) (hcs : s.cs = .deasserted) : csDeassert s = refuse .csProtocol s := by
  rw [csDeassert, hcs]

/-- Settles O9: the open transaction where chip-select is deasserted, the refusal where it is asserted. -/
theorem chipSelectAssertion : Obligations.ChipSelectAssertion := by
  refine fun s => ⟨fun hcs => ⟨s.openTransaction, ?_, rfl⟩, fun hcs => ?_⟩
  · exact csAssert_of_deasserted s hcs
  · exact csAssert_of_asserted s hcs

/-- Settles O10: the closed transaction where chip-select is asserted, at any position, the refusal where it is
deasserted. -/
theorem chipSelectDeassertion : Obligations.ChipSelectDeassertion := by
  refine fun s => ⟨fun hcs => ?_, fun hcs => ?_⟩
  · exact csDeassert_of_asserted s hcs
  · exact csDeassert_of_deasserted s hcs

/-! ### A byte at each position -/

theorem transfer_of_deasserted (m : Byte) (s : State) (hcs : s.cs = .deasserted) :
    transfer m s = refuse .xferIdle s := by
  rw [transfer, hcs]

theorem transfer_expectCmd (m : Byte) (s : State) (hcs : s.cs = .asserted) (hseq : s.seq = .expectCmd) :
    transfer m s = exec (decodeCommand m) s :=
  transfer_ok m s _ hcs (by rw [hseq, decode])

theorem transfer_addrData (m : Byte) (s : State) (hcs : s.cs = .asserted) (hseq : s.seq = .addrData) :
    transfer m s = exec (.data m) s :=
  transfer_ok m s _ hcs (by rw [hseq, decode])

theorem transfer_closed (m : Byte) (s : State) (hcs : s.cs = .asserted) (hseq : s.seq = .closed) :
    transfer m s = refuse .trailingByte s :=
  transfer_error m s _ hcs (by rw [hseq, decode])

theorem transfer_keyRead (m : Byte) (k : Fin 5) (s : State) (hcs : s.cs = .asserted) (hseq : s.seq = .keyRead k) :
    transfer m s =
      if m = 0xFF then exec .rdkey s else if k = 4 then refuse .readOverrun s else refuse .readMosi s := by
  have hfour : k = 4 ↔ k.val = 4 := Fin.ext_iff
  split_ifs with hm hk
  · exact transfer_ok m s _ hcs (by rw [hseq, decode, if_pos hm])
  · exact transfer_error m s _ hcs (by rw [hseq, decode_keyRead_other k m hm, if_pos (hfour.1 hk)])
  · exact transfer_error m s _ hcs (by rw [hseq, decode_keyRead_other k m hm, if_neg (mt hfour.2 hk)])

/-! ### The byte the host receives -/

/-- Every instruction but `RDKEY` returns a free value (R114). -/
theorem execEffect_lineDraw (i : Instr) (s t : State) (h : ExecEffect s i t) (hi : i ≠ .rdkey) :
    t.rx = s.rx ++ [lineDraw s] ∧ t.busRx = s.busRx ++ [flipByte (lineDraw s)] := by
  cases h with
  | data d m a hrw hptr => exact ⟨by simp, by simp⟩
  | rdkey k hseq => exact absurd rfl hi
  | _ => exact ⟨State.reply_rx .., rfl⟩

/-- For a command byte or a data byte the host receives a free value (R113, R114). -/
theorem transfer_lineDraw (m : Byte) (s t : State) (hseq : s.seq = .expectCmd ∨ s.seq = .addrData)
    (h : transfer m s = .next t) : t.rx = s.rx ++ [lineDraw s] ∧ t.busRx = s.busRx ++ [flipByte (lineDraw s)] := by
  obtain ⟨hcs, -⟩ := transfer_next m s t h
  obtain hseq | hseq := hseq
  · rw [transfer_expectCmd m s hcs hseq] at h
    exact execEffect_lineDraw _ s t (exec_effect _ s t h) (decodeCommand_ne_rdkey m)
  · rw [transfer_addrData m s hcs hseq] at h
    exact execEffect_lineDraw _ s t (exec_effect _ s t h) Instr.noConfusion

/-- Of every bus byte received the host holds the flipped one (R116). -/
theorem transfer_received (m : Byte) (s t : State) (h : transfer m s = .next t) :
    ∃ r, t.busRx = s.busRx ++ [r] ∧ t.rx = s.rx ++ [flipByte r] := by
  obtain ⟨-, i, -, hexec⟩ := transfer_next m s t h
  exact (exec_keeps i s t hexec).received

/-- The flipped chip byte on the bus is that chip byte's exchange (R116). -/
theorem runInput_busXfer_flipByte (p : Params) (m : Byte) (s : State) :
    runInput p (.busXfer (flipByte m)) s = runInput p (.xfer m) s :=
  runInput_of_exchanged p _ m s (congrArg some (flipByte_flipByte m))

/-- Settles O11: the dispatch position by position; the bus bytes of both directions by bit reversal's being its own
inverse. -/
theorem exchangeDispatchesOnSequencer : Obligations.ExchangeDispatchesOnSequencer := by
  refine ⟨transfer_of_deasserted, fun m s hcs => ⟨?_, ?_, ?_, ?_, ?_, ?_, ?_, ?_⟩⟩
  · exact transfer_expectCmd m s hcs
  · exact transfer_addrData m s hcs
  · exact fun k => transfer_keyRead m k s hcs
  · exact transfer_closed m s hcs
  · exact fun t => transfer_lineDraw m s t
  · exact fun p => runInput_busXfer_flipByte p m s
  · intro p b0 b1 b2 b3 b4 b5 b6 b7
    rw [busByteOfLine_eq_flipByte, runInput_busXfer_flipByte]
  · exact transfer_received m s

end Sys2Proof.Machine
end

section
/-!
PROOFS of the command family: the effect of each admitted command byte, the stops that may follow it in its transaction,
and the refused rows.
-/

namespace Sys2Proof.Machine

/-! ### Stops of a data byte and of a read byte -/

/-- A data byte before any data-setting command (R164). -/
theorem exec_data_modeUnknown (d : Byte) (s : State) (hrw : s.rw = .bot) : exec (.data d) s = refuse .modeUnknown s := by
  simp only [exec, execData, hrw]

/-- A data byte past the last address, in either mode (R163). -/
theorem exec_data_writeOverrun (d : Byte) (s : State) (hrw : s.rw ≠ .bot) (hptr : s.ptr = .known 16) :
    exec (.data d) s = refuse .writeOverrun s := by
  cases hm : s.rw with
  | bot => exact absurd hm hrw
  | known m => simp [exec, execData, hm, hptr]

/-- Where the row `RDKEY` stands a fifth time its own rule refuses it (R183). -/
theorem exec_rdkey_readOverrun (s : State) (hseq : s.seq = .keyRead 4) : exec .rdkey s = refuse .readOverrun s := by
  simp [exec, execRdkey, hseq]

/-- A fifth read byte is refused, whatever byte the host sends (R183, R284). -/
theorem transfer_readOverrun (m : Byte) (s : State) (hcs : s.cs = .asserted) (hseq : s.seq = .keyRead 4) :
    transfer m s = refuse .readOverrun s := by
  rw [transfer_keyRead m 4 s hcs hseq, exec_rdkey_readOverrun s hseq, if_pos rfl, ite_self]

/-- In read mode a data byte leaves display memory and the mode (R162). -/
theorem exec_data_readMode (d : Byte) (s u : State) (hrw : s.rw = .known .read) (h : exec (.data d) s = .next u) :
    u.dm = s.dm ∧ u.rw = .known .read := by
  cases exec_effect _ s u h with
  | data _ m a hm hptr =>
    obtain rfl : m = .read := Latch.known.inj (hm.symm.trans hrw)
    exact ⟨rfl, hrw⟩

/-! ### The admitted commands -/

/-- Settles O14: the state the row ends in is `CLOSED`, where every byte is refused. -/
theorem writeModeCommand : Obligations.WriteModeCommand := by
  refine ⟨rfl, by decide, by decide, fun s => ⟨_, exec_of_effect _ s _ .dsetW, rfl, fun m hcs => ?_⟩⟩
  exact transfer_closed m _ hcs rfl

/-- Settles O15: the deassertion touches no mode latch, a data byte keeps the mode it is discarded in, and a fifth read
byte is refused whatever it is. -/
theorem readModeCommand : Obligations.ReadModeCommand := by
  refine ⟨rfl, by decide, by decide, fun s => ⟨_, exec_of_effect _ s _ .dsetR, rfl, fun hcs => ?_⟩, ?_, ?_⟩
  · exact csDeassert_of_asserted _ hcs
  · exact exec_data_readMode
  · exact transfer_readOverrun

/-- An address-setting byte is its class bits joined with the address (R84, R93). -/
theorem encode_addr_eq_or (a : BitVec 4) : encode (.addr a) = 0xC0 ||| a.zeroExtend 8 := by revert a; decide

/-- Settles O16: the command leaves the mode as it was, so an unknown mode is unknown to the data byte after it. -/
theorem addressCommand : Obligations.AddressCommand := by
  refine fun a => ⟨encode_addr_eq_or a, decode_addr a, fun s => ⟨_, exec_of_effect _ s _ (.addr a), rfl, ?_, ?_⟩⟩
  · exact fun d hrw => exec_data_modeUnknown d _ hrw
  · exact exec_data_writeOverrun

/-- Settles O17: both fields of the byte are decoded, and the state the row ends in is `CLOSED`. -/
theorem displayControlCommand : Obligations.DisplayControlCommand := by
  refine fun n b => ⟨encode_dctrl_toNat n b, congrArg Except.ok (decodeCommand_encode (.dctrl n b) rfl rfl),
    fun s => ⟨_, exec_of_effect _ s _ (.dctrl n b), rfl, fun m hcs => ?_⟩⟩
  exact transfer_closed m _ hcs rfl

/-! ### The refused rows -/

/-- Settles O19: `commandRefusal` names each row's code, and a row it names a code for stops with it. -/
theorem refusedRowsStop : Obligations.RefusedRowsStop := by
  intro s stop
  have hstop (i : Instr) (r : RefusalCode) (h : commandRefusal i = some r) : exec i s = stop r :=
    exec_of_commandRefusal i r s h
  refine ⟨fun x => ?_, fun x => ?_, fun r x => ?_, fun t r => ?_, fun r => ?_, fun r a => ?_, fun r n b => ?_⟩
  all_goals exact hstop _ _ rfl

end Sys2Proof.Machine
end

section
/-!
PROOFS of the display-memory family: a data byte in each mode, grid words, the display observations, the display turned
off and on again, block writes past address 15, and block writes lost in read mode.
-/

namespace Sys2Proof.Machine

/-! ### A data byte -/

/-- Settles O20: the byte's effect in each mode, and the two stops of its row. -/
theorem dataByteWritesDisplayMemory : Obligations.DataByteWritesDisplayMemory := by
  refine fun d s => ⟨fun a hrw hptr => ?_, fun a hrw hptr => ?_, fun hrw => ?_, fun m hrw hptr => ?_⟩
  · refine ⟨_, exec_of_effect _ s _ (.data d .write a hrw hptr), memRead_memWrite_self s.dm a d, fun b hb => ?_, rfl⟩
    exact memRead_memWrite_other s.dm a b d hb
  · exact ⟨_, exec_of_effect _ s _ (.data d .read a hrw hptr), rfl⟩
  · exact exec_data_modeUnknown d s hrw
  · exact exec_data_writeOverrun d s (by simp [hrw]) hptr

theorem modesTogether_of_rw_known (s : State) (m : RwMode) (h : ModesTogether s) (hrw : s.rw = .known m) :
    s.ainc = .known .inc ∧ s.test = .known .normal := by
  cases h with
  | unknown hr ha ht => cases hr.symm.trans hrw
  | known m' hr ha ht => exact ⟨ha, ht⟩

/-- Settles O22: the data byte's stop, and the invariant's clause about the mode latches. -/
theorem modeUnknownBeforeDataSetting : Obligations.ModeUnknownBeforeDataSetting :=
  ⟨exec_data_modeUnknown, fun s hs m => modesTogether_of_rw_known s m hs.modes⟩

/-! ### What a segment shows -/

@[simp] theorem segmentAddr_val (g : Fin 8) (j : Fin 16) : (segmentAddr g j).val = 2 * g.val + j.val / 8 := rfl

section
variable (s : State) (g : Fin 8) (j : Fin 16)

theorem litValue_of_don_unknown (hdon : s.don = .bot) : litValue s g j = .bot := by
  rw [litValue, hdon]

/-- Display off is dark, known byte or not (R166). -/
theorem litValue_of_off (hdon : s.don = .known false) : litValue s g j = .known false := by
  rw [litValue, hdon]

theorem litValue_of_byte_unknown (hdon : s.don = .known true) (hdm : memRead s.dm (2 * g.val + j.val / 8) = .bot) :
    litValue s g j = .bot := by
  simp only [litValue, hdon, segmentAddr_val, hdm]

theorem litValue_of_byte_known (b : Byte) (hdon : s.don = .known true)
    (hdm : memRead s.dm (2 * g.val + j.val / 8) = .known b) : litValue s g j = .known (b.getLsbD (j.val % 8)) := by
  simp only [litValue, hdon, segmentAddr_val, hdm, segmentBit]

/-! ### Observations -/

theorem observeLit_of_value (v : Bool) (h : litValue s g j = .known v) :
    observeLit g j s = .next (s.setSeen (.lit v)) := by
  rw [observeLit, h]

theorem observeLit_of_fault (h : litValue s g j = .bot) :
    observeLit g j s = .next ((s.recordFault .unwrittenState).setSeen .noValue) := by
  rw [observeLit, h]

theorem observeLevel_of_known (l : BitVec 3) (h : s.brt = .known l) :
    observeLevel s = .next (s.setSeen (.level l)) := by
  rw [observeLevel, h]

theorem observeLevel_of_unknown (h : s.brt = .bot) :
    observeLevel s = .next ((s.recordFault .unwrittenState).setSeen .noValue) := by
  rw [observeLevel, h]

end

/-- Settles O26: the value of the segment, or none, in each case of the display latch and the byte; then what an
observation does with it. -/
theorem displayObservation : Obligations.DisplayObservation := by
  intro s g j faulted
  refine ⟨fun hdon => ?_, fun hdon => ?_, fun hdon hdm => ?_, fun b hdon hdm => ?_, fun hbrt => ?_, fun l hbrt => ?_⟩
  · exact observeLit_of_fault s g j (litValue_of_don_unknown s g j hdon)
  · exact observeLit_of_value s g j _ (litValue_of_off s g j hdon)
  · exact observeLit_of_fault s g j (litValue_of_byte_unknown s g j hdon hdm)
  · exact observeLit_of_value s g j _ (litValue_of_byte_known s g j b hdon hdm)
  · exact observeLevel_of_unknown s hbrt
  · exact observeLevel_of_known s l hbrt

/-! ### Grid words -/

/-- The word of two bytes as arithmetic (R160). -/
theorem append_toNat (hi lo : Byte) : (hi ++ lo).toNat = lo.toNat + 256 * hi.toNat := by
  rw [BitVec.toNat_append, ← Nat.shiftLeft_add_eq_or_of_lt lo.isLt, Nat.shiftLeft_eq]
  omega

theorem append_getLsbD_low (hi lo : Byte) (i : Nat) (h : i < 8) : (hi ++ lo).getLsbD i = lo.getLsbD i := by
  rw [BitVec.getLsbD_append, if_pos h]

theorem append_getLsbD_high (hi lo : Byte) (i : Nat) : (hi ++ lo).getLsbD (8 + i) = hi.getLsbD i := by
  rw [BitVec.getLsbD_append, if_neg (by omega), Nat.add_sub_cancel_left]

theorem gridWord_unknown (m : Memory) (g : Fin 8)
    (h : memRead m (2 * g.val) = .bot ∨ memRead m (2 * g.val + 1) = .bot) : gridWord m g = .bot := by
  cases hw : gridWord m g with
  | bot => rfl
  | known w =>
    obtain ⟨lo, hi, hlo, hhi, -⟩ := (gridWord_known m g w).1 hw
    obtain h | h := h
    · cases hlo.symm.trans h
    · cases hhi.symm.trans h

/-- With the display on a segment shows its bit of the grid word: of the even byte below bit 8, of the odd byte from
there on (R160, R165). -/
theorem litValue_of_gridWord (s : State) (g : Fin 8) (j : Fin 16) (w : BitVec 16) (hdon : s.don = .known true)
    (hw : gridWord s.dm g = .known w) : litValue s g j = .known (w.getLsbD j.val) := by
  obtain ⟨lo, hi, hlo, hhi, rfl⟩ := (gridWord_known s.dm g w).1 hw
  obtain hj | hj := lt_or_ge j.val 8
  · rw [litValue_of_byte_known s g j lo hdon (by rw [Nat.div_eq_of_lt hj]; exact hlo), Nat.mod_eq_of_lt hj,
      append_getLsbD_low hi lo _ hj]
  · have hbit : 8 + j.val % 8 = j.val := by omega
    rw [litValue_of_byte_known s g j hi hdon (by rw [show j.val / 8 = 1 by omega]; exact hhi),
      ← append_getLsbD_high hi lo, hbit]

/-- Settles O25: the odd byte stands before the even one in the word, and a segment finds its byte by bit 3 of its
number. -/
theorem gridWordOfTwoBytes : Obligations.GridWordOfTwoBytes := by
  refine fun m g => ⟨fun lo hi hlo hhi => ⟨hi ++ lo, ?_, append_toNat hi lo, fun i hi8 => ⟨?_, ?_⟩⟩, ?_, ?_⟩
  · exact (gridWord_known m g _).2 ⟨lo, hi, hlo, hhi, rfl⟩
  · exact append_getLsbD_low hi lo i hi8
  · exact append_getLsbD_high hi lo i
  · exact gridWord_unknown m g
  · rintro s j w rfl
    exact litValue_of_gridWord s g j w

/-! ### Display off and on again -/

/-- Turned on, the display shows the memory as it stands (R167). -/
theorem exec_dctrl_on_shows (s : State) (b : BitVec 3) :
    ∃ t : State, exec (.dctrl true b) s = .next t ∧ t.dm = s.dm ∧
      ∀ (g : Fin 8) (j : Fin 16) (c : Byte), memRead s.dm (2 * g.val + j.val / 8) = .known c →
        litValue t g j = .known (c.getLsbD (j.val % 8)) :=
  ⟨_, exec_of_effect _ s _ (.dctrl true b), rfl, fun g j c hc => litValue_of_byte_known _ g j c rfl hc⟩

/-- Settles O27: neither the command nor the data byte after it turns the display on, and the command touches neither
display memory nor the pointer. -/
theorem displayOffKeepsMemory : Obligations.DisplayOffKeepsMemory := by
  intro s b b' d dark shownAgain
  have dark_of_off (u : State) (hdon : u.don = .known false) : dark u := fun g j => litValue_of_off u g j hdon
  have shown (u : State) : shownAgain u := exec_dctrl_on_shows u b'
  refine ⟨_, exec_of_effect _ s _ (.dctrl false b), rfl, rfl, dark_of_off _ rfl, shown _, fun a hrw hptr => ?_⟩
  refine ⟨_, exec_of_effect _ _ _ (.data d .write a hrw hptr), rfl, memRead_memWrite_self s.dm a d, fun x hx => ?_,
    dark_of_off _ rfl, shown _⟩
  exact memRead_memWrite_other s.dm a x d hx

/-! ### Past address 15 -/

theorem run_of_step_refused (k : Nat) (s : State) (r : Refusal) (h : step s = .refused r) :
    Sys2Proof.core.run (k + 1) s = .refused r := by
  have h' : Sys2Proof.core.step s = .refused r := h
  simp only [Host.Core.run, h']

/-- The step at a data byte past address 15, in either mode (R163). -/
theorem step_writeOverrun (s : State) (d : Byte) (es : List Input) (hr : s.refused = none)
    (hi : s.input = .xfer d :: es) (hcs : s.cs = .asserted) (hseq : s.seq = .addrData) (hrw : s.rw ≠ .bot)
    (hptr : s.ptr = .known 16) : step s = refuse .writeOverrun (s.setInput es) := by
  have hdec : decode s.seq d = .ok (.data d) := by rw [hseq]; rfl
  rw [step_of_exchanged s _ es d _ hr hi rfl hcs hdec]
  exact exec_data_writeOverrun d _ hrw hptr

/-! ### Block writes in write mode -/

theorem map_xfer_split (bs : List Byte) (n : Nat) (es : List Input) :
    bs.map .xfer ++ es = (bs.take n).map .xfer ++ ((bs.drop n).map .xfer ++ es) := by
  rw [← List.append_assoc, ← List.map_append, List.take_append_drop]

/-- The first `n` data bytes of a block write: those are written, and the others come next (R64, R170). -/
theorem run_blockStart (s : State) (a : BitVec 4) (bs : List Byte) (rest : List Input) (n : Nat)
    (hr : s.refused = none) (hcs : s.cs = .deasserted) (hrw : s.rw = .known .write)
    (hi : s.input = blockEvents a bs ++ rest) (hn : n ≤ bs.length) (hfit : a.toNat + n ≤ 16) :
    ∃ u : State, Sys2Proof.core.run (n + 2) s = .next u ∧ WritesBlock a.toNat (bs.take n) s u ∧
      Writing u (a.toNat + n) ((bs.drop n).map .xfer ++ .csDeassert :: rest) := by
  have hlen : (bs.take n).length = n := List.length_take_of_le hn
  obtain ⟨t, ht, hwt, ht'⟩ := run_openBlock s a bs rest hr hcs hrw hi
  rw [map_xfer_split bs n] at ht'
  obtain ⟨u, hu, hwu, hu'⟩ := run_writing (bs.take n) a.toNat t _ ht' (by rwa [hlen])
  rw [hlen] at hu hu'
  refine ⟨u, ?_, writesBlock_append a.toNat [] _ s t u hwt hwu, hu'⟩
  rw [Nat.add_comm, run_add _ _ _ _ ht, hu]

/-- What the first `n` data bytes of a block write, by the bytes of the block. -/
theorem writesBlock_take_written (a n : Nat) (bs : List Byte) (s u : State) (h : WritesBlock a (bs.take n) s u)
    (i : Nat) (hi : i < bs.length) (hn : i < n) : memRead u.dm (a + i) = .known bs[i] := by
  rw [h.written i (by rw [List.length_take]; omega), List.getElem_take]

/-- The step after a block has reached address 15, where it has a byte more (R163, R170). -/
theorem step_writing_overrun (s : State) (bs : List Byte) (n : Nat) (es : List Input)
    (h : Writing s 16 ((bs.drop n).map .xfer ++ es)) (hn : n < bs.length) :
    ∃ es', step s = refuse .writeOverrun (s.setInput es') := by
  rw [List.drop_eq_getElem_cons hn] at h
  exact ⟨_, step_writeOverrun s _ _ h.refused h.input h.cs h.seq (by simp [h.rw]) (h.ptr 16 rfl)⟩

/-- Settles O28: the first bytes of the block, the whole block, and its bytes up to address 15 with the refused byte
behind them. -/
theorem blockWriteTransaction : Obligations.BlockWriteTransaction := by
  intro s a bs rest hr hcs hrw hi
  have ha : a.toNat < 16 := a.isLt
  refine ⟨fun n hn hfit => ?_, fun hfit => ?_, fun hover => ?_⟩
  · obtain ⟨u, hu, hwu, hu'⟩ := run_blockStart s a bs rest n hr hcs hrw hi hn hfit
    refine ⟨u, hu, writesBlock_take_written _ n bs s u hwu, fun b hb => hwu.frame b ?_, hu'.seq, hu'.ptr⟩
    rwa [List.length_take_of_le hn]
  · obtain ⟨t, ht, hwt, hptr, htcs, hseq, hin⟩ := run_block s a bs rest hr hcs hrw hi hfit
    exact ⟨t, ht, hwt.written, hwt.frame, hptr, htcs, hseq, hin, hwt.latches, hwt.host⟩
  · obtain ⟨u, hu, hwu, hu'⟩ := run_blockStart s a bs rest (16 - a.toNat) hr hcs hrw hi (by omega) (by omega)
    rw [Nat.add_sub_cancel' ha.le] at hu'
    obtain ⟨es, hstop⟩ := step_writing_overrun u bs _ _ hu' (by omega)
    refine ⟨(u.setInput es).markRefused .writeOverrun, ?_, rfl, fun i h hlt => ?_, fun b hb => ?_, hu'.ptr 16 rfl⟩
    · exact (run_add _ 1 _ _ hu).trans (run_of_step_refused 0 _ _ hstop)
    · exact writesBlock_take_written _ _ bs s u hwu i h (by omega)
    · exact hwu.frame b (.inl hb)

/-! ### Data bytes in read mode -/

/-- From `s` to `t` display memory, the latches and the host's own fields are as they were. -/
structure KeepsMemory (s t : State) : Prop where
  dm : t.dm = s.dm
  latches : SameLatches s t
  host : SameHost s t

theorem keepsMemory_trans (s t u : State) (h : KeepsMemory s t) (h' : KeepsMemory t u) : KeepsMemory s u where
  dm := h'.dm.trans h.dm
  latches := sameLatches_trans s t u h.latches h'.latches
  host := sameHost_trans s t u h.host h'.host

/-- The chip discards data bytes in read mode, the next one at address `a`, and the host does `es` next. -/
structure Discarding (s : State) (a : Nat) (es : List Input) : Prop where
  refused : s.refused = none
  cs : s.cs = .asserted
  seq : s.seq = .addrData
  rw : s.rw = .known .read
  ptr : ∀ p : Fin 17, p.val = a → s.ptr = .known p
  input : s.input = es

theorem step_discarding (s : State) (a : Fin 16) (d : Byte) (es : List Input)
    (h : Discarding s a.val (.xfer d :: es)) :
    ∃ t, step s = .next t ∧ KeepsMemory s t ∧ Discarding t (a.val + 1) es := by
  have hdec : decode s.seq d = .ok (.data d) := by rw [h.seq]; rfl
  refine ⟨_, step_xfer s _ d _ es h.refused h.input h.cs hdec (.data d .read a h.rw (h.ptr _ rfl)), ?_, ?_⟩
  · exact ⟨rfl, by constructor <;> rfl, by constructor <;> rfl⟩
  · refine ⟨h.refused, h.cs, h.seq, h.rw, fun p hp => ?_, rfl⟩
    obtain rfl : p = ptrAfter a := Fin.ext hp
    rfl

/-- Data bytes that fit are discarded one after the other; the pointer moves behind them (R162). -/
theorem run_discarding (bs : List Byte) (a : Nat) (s : State) (es : List Input)
    (h : Discarding s a (bs.map .xfer ++ es)) (hfit : a + bs.length ≤ 16) :
    ∃ t : State, Sys2Proof.core.run bs.length s = .next t ∧ KeepsMemory s t ∧ Discarding t (a + bs.length) es := by
  induction bs generalizing a s with
  | nil => exact ⟨s, rfl, ⟨rfl, by constructor <;> rfl, by constructor <;> rfl⟩, h⟩
  | cons d bs ih =>
    rw [List.length_cons] at hfit
    obtain ⟨u, hu, hku, hu'⟩ := step_discarding s ⟨a, by omega⟩ d _ h
    obtain ⟨t, ht, hkt, ht'⟩ := ih (a + 1) u hu' (by omega)
    refine ⟨t, run_of_step _ _ _ _ hu ht, keepsMemory_trans s u t hku hkt, ?_⟩
    rwa [List.length_cons, ← Nat.add_assoc, Nat.add_right_comm]

/-- Settles O21, by induction on the bytes that fit; the byte behind them finds the pointer at 16. -/
theorem dataBytesDiscardedInReadMode : Obligations.DataBytesDiscardedInReadMode := by
  intro bs s a rest hr hcs hseq hrw hptr hi
  have h : Discarding s a (bs.map .xfer ++ rest) := ⟨hr, hcs, hseq, hrw, hptr, hi⟩
  refine ⟨fun hfit => ?_, fun ha hover => ?_⟩
  · obtain ⟨t, ht, hkt, ht'⟩ := run_discarding bs a s rest h hfit
    exact ⟨t, ht, hkt.dm, ht'.rw, ht'.seq, ht'.input, ht'.ptr⟩
  · have hlt : 16 - a < bs.length := by omega
    have hlen : (bs.take (16 - a)).length = 16 - a := List.length_take_of_le hlt.le
    rw [map_xfer_split bs (16 - a), List.drop_eq_getElem_cons hlt] at h
    obtain ⟨t, ht, hkt, ht'⟩ := run_discarding _ a s _ h (by omega)
    rw [hlen] at ht ht'
    have hptr' : t.ptr = .known 16 := ht'.ptr 16 (by simp; omega)
    have hstop := step_writeOverrun t _ _ ht'.refused ht'.input ht'.cs ht'.seq (by simp [ht'.rw]) hptr'
    exact ⟨_, (run_add _ 1 _ _ ht).trans (run_of_step_refused 0 _ _ hstop), hkt.dm, ht'.rw, hptr'⟩

/-- Select and `ADDR a` in read mode: the data bytes come next (R111, R136). -/
theorem run_openBlock_discarding (s : State) (a : BitVec 4) (bs : List Byte) (rest : List Input)
    (hr : s.refused = none) (hcs : s.cs = .deasserted) (hrw : s.rw = .known .read)
    (hi : s.input = blockEvents a bs ++ rest) :
    ∃ t : State, Sys2Proof.core.run 2 s = .next t ∧ KeepsMemory s t ∧
      Discarding t a.toNat (bs.map .xfer ++ .csDeassert :: rest) := by
  have hi' : s.input = .csAssert :: .xfer (encode (.addr a)) :: (bs.map .xfer ++ .csDeassert :: rest) := by
    simp [hi, blockEvents, xact]
  refine ⟨_, run_of_step 1 _ _ _ (step_csAssert s _ hr hi' hcs)
    (run_of_step 0 _ _ _ (step_addr _ a _ hr rfl rfl rfl) rfl), ?_, ?_⟩
  · exact ⟨rfl, by constructor <;> rfl, by constructor <;> rfl⟩
  · refine ⟨hr, rfl, rfl, hrw, fun p hp => ?_, rfl⟩
    obtain rfl : p = ptrOf a := Fin.ext hp
    rfl

/-- Settles O29: the transaction opens, its bytes are discarded, and it closes. -/
theorem readModeLosesABlockWrite : Obligations.ReadModeLosesABlockWrite := by
  intro s a bs rest hr hcs hrw hi hfit
  obtain ⟨u, hu, hku, hu'⟩ := run_openBlock_discarding s a bs rest hr hcs hrw hi
  obtain ⟨v, hv, hkv, hv'⟩ := run_discarding bs a.toNat u _ hu' hfit
  have hclose := step_csDeassert v rest hv'.refused hv'.input hv'.cs
  have hkt : KeepsMemory v (v.setInput rest).closeTransaction :=
    ⟨rfl, by constructor <;> rfl, by constructor <;> rfl⟩
  have hk := keepsMemory_trans s v _ (keepsMemory_trans s u v hku hkv) hkt
  refine ⟨_, ?_, hk.dm, hv'.ptr, rfl, rfl, rfl, hk.latches, hk.host⟩
  rw [show bs.length + 3 = 2 + (bs.length + 1) by omega, run_add _ _ _ _ hu, run_add _ _ _ _ hv]
  exact run_of_step 0 _ _ _ hclose rfl

end Sys2Proof.Machine
end

section
/-!
PROOFS of the key-scan family: a read byte at each position of a read transaction.
-/

namespace Sys2Proof.Machine

/-- A reply as a whole state: the byte received on both sides of the bus, one draw more, nothing else (R116). -/
theorem reply_eq_with (s : State) (b : Byte) :
    s.reply b = { s with rx := s.rx ++ [b], busRx := s.busRx ++ [flipByte b], draws := s.draws + 1 } := by
  simp only [State.reply, State.receive, State.advanceDraw, flipByte_flipByte]

/-- Before the fifth, a read byte sent as anything but 0xFF is refused (R184). -/
theorem transfer_readMosi (m : Byte) (k : Fin 4) (s : State) (hcs : s.cs = .asserted)
    (hseq : s.seq = .keyRead k.castSucc) (hm : m ≠ 0xFF) : transfer m s = refuse .readMosi s := by
  have hk : k.castSucc ≠ 4 := Fin.castSucc_ne_last k
  rw [transfer_keyRead m k.castSucc s hcs hseq, if_neg hm, if_neg hk]

/-- Settles O30: the row's effect replies with the drawn byte; the stops are those of the fifth read byte and of a sent
byte other than 0xFF. -/
theorem readByteReturnsKeyMemory : Obligations.ReadByteReturnsKeyMemory := by
  refine fun s => ⟨fun k hseq => ⟨_, exec_of_effect _ s _ (.rdkey k hseq), ?_⟩, ?_, ?_, ?_⟩
  · exact reply_eq_with (s.setSeq (nextRead k)) (keyDraw s k)
  · exact exec_rdkey_readOverrun s
  · exact fun m => transfer_readOverrun m s
  · exact fun m k => transfer_readMosi m k s

end Sys2Proof.Machine
end

section
/-!
PROOFS of the host-operation family: the key count, the transactions of one command byte, the scan, the block operations,
the operations' bus traces, and their admission.
-/

namespace Sys2Proof.Machine

/-! ### The key count and the verdict -/

/-- The bits on the line are bits 0 to 7 of the byte, in this order (R53). -/
theorem lineBits_eq_map_range (b : Byte) : lineBits b = (List.range 8).map b.getLsbD := rfl

theorem popcount_eq_length_filter (b : Byte) :
    popcount b = ((List.range 8).filter fun j => b.getLsbD j).length := by
  rw [popcount, lineBits_eq_map_range, List.count_eq_countP, List.countP_map, List.countP_eq_length_filter]
  simp [Function.comp_def]

theorem popcount_le_eight (b : Byte) : popcount b ≤ 8 := List.count_le_length

theorem keyCount_le (kd : Vector Byte 4) : keyCount kd ≤ 32 := by
  have h0 := popcount_le_eight kd[0]
  have h1 := popcount_le_eight kd[1]
  have h2 := popcount_le_eight kd[2]
  have h3 := popcount_le_eight kd[3]
  rw [keyCount]
  omega

/-- Bytes that agree on the bits of a mask are one byte under the mask. -/
theorem and_eq_and_of_mask (mask r q : Byte) (h : ∀ j, mask.getLsbD j = true → r.getLsbD j = q.getLsbD j) :
    r &&& mask = q &&& mask := by
  refine BitVec.eq_of_getLsbD_eq fun j _ => ?_
  rw [BitVec.getLsbD_and, BitVec.getLsbD_and]
  cases hm : mask.getLsbD j with
  | false => rw [Bool.and_false, Bool.and_false]
  | true => rw [h j hm]

/-- Settles O33: the count adds up the set bits of the four bytes, and the masked bytes do not show a bit outside the
mask. -/
theorem keypressVerdict : Obligations.KeypressVerdict := by
  refine ⟨fun kd => ⟨?_, keyCount_le kd, ?_, ?_⟩, fun mask r q h => congrArg keyCount ?_⟩
  · simp only [Fin.sum_univ_four, ← popcount_eq_length_filter]
    rfl
  · rw [keyPressed, beq_iff_eq]
  · rw [keyPressed, decide_eq_true_iff]
  · refine Vector.ext fun i hi => ?_
    rw [Vector.getElem_map, Vector.getElem_map]
    exact and_eq_and_of_mask mask _ _ (h ⟨i, hi⟩)

/-! ### Transactions of one command byte -/

/-- What a run comes to, from its first `j` steps: `run_add` with the rest of the run at hand. -/
theorem run_of_run (j k : Nat) (s t : State) (r : Host.Outcome State Fault Refusal)
    (h : Sys2Proof.core.run j s = .next t) (ht : Sys2Proof.core.run k t = r) : Sys2Proof.core.run (j + k) s = r :=
  (run_add j k s t h).trans ht

/-- `s` after a transaction of one command byte whose latches are set already: the chip deselected, one free byte
received, and `rest` to do next (R114, R201). -/
def State.afterCommand (s : State) (rest : List Input) : State :=
  { s with
    cs := .deasserted, seq := .idle, input := rest, rx := [lineDraw s], busRx := [flipByte (lineDraw s)],
    draws := s.draws + 1 }

/-- Select, the command byte, deselect: three steps, the instruction's effect between them (R111, R115, R201). -/
theorem run_command (s u : State) (i : Instr) (rest : List Input) (hr : s.refused = none) (hcs : s.cs = .deasserted)
    (hi : s.input = xact [encode i] ++ rest) (hd : decode .expectCmd (encode i) = .ok i)
    (h : ExecEffect (s.setInput (.csDeassert :: rest)).openTransaction i u) :
    Sys2Proof.core.run 3 s = .next (u.setInput rest).closeTransaction := by
  have hk := exec_keeps i _ u (exec_of_effect i _ u h)
  refine run_of_step 2 _ _ _ (step_csAssert s _ hr hi hcs) ?_
  refine run_of_step 1 _ _ _ (step_xfer _ u _ i _ hr rfl rfl hd h) ?_
  exact run_of_step 0 _ _ _ (step_csDeassert u rest (hk.refused.trans hr) hk.input hk.cs) rfl

/-- `xact[0x40]` (R131, R203, R213). -/
theorem run_writeMode (s : State) (rest : List Input) (hr : s.refused = none) (hcs : s.cs = .deasserted)
    (hi : s.input = writeModeEvents ++ rest) :
    Sys2Proof.core.run 3 s = .next ((s.setModes .write).afterCommand rest) := by
  rw [run_command s _ .dsetW rest hr hcs hi (by decide) .dsetW, reply_eq_with]
  rfl

/-- `sendDisplayControl` (R138, R204). -/
theorem run_displayControl (s : State) (on : Bool) (b : BitVec 3) (rest : List Input) (hr : s.refused = none)
    (hcs : s.cs = .deasserted) (hi : s.input = displayControlEvents on b ++ rest) :
    Sys2Proof.core.run 3 s = .next ((s.setDisplay on b).afterCommand rest) := by
  have hd : decode .expectCmd (encode (.dctrl on b)) = .ok (.dctrl on b) :=
    congrArg Except.ok (decodeCommand_encode (.dctrl on b) rfl rfl)
  rw [run_command s _ (.dctrl on b) rest hr hcs hi hd (.dctrl on b), reply_eq_with]
  rfl

/-! ### The call of an operation -/

/-- The first step of an operation expands it; what follows is the run of its events (R94). -/
theorem run_of_op (k : Nat) (s u : State) (o : HostOp) (rest : List Input) (r : Host.Outcome State Fault Refusal)
    (hr : s.refused = none) (hi : s.input = .op o :: rest) (hop : runOp Config.params o (s.setInput rest) = .next u)
    (hrun : Sys2Proof.core.run k u = r) : Sys2Proof.core.run (k + 1) s = r :=
  run_of_step k s u r ((stepWith_input _ s _ _ hr hi).trans hop) hrun

/-! ### `init` and the setters -/

section
variable (s : State) (rest : List Input)

theorem run_init (hr : s.refused = none) (hcs : s.cs = .deasserted) (hi : s.input = .op .init :: rest) :
    Sys2Proof.core.run 7 s = .next
      (((((s.setHost true Config.brtDefault).setDisplay true Config.brtDefault).afterCommand
        (writeModeEvents ++ rest)).setModes .write).afterCommand rest) := by
  refine run_of_op 6 s _ .init rest _ hr hi rfl ?_
  refine run_of_run 3 3 _ _ _ (run_displayControl _ true Config.brtDefault (writeModeEvents ++ rest) hr hcs rfl) ?_
  exact run_writeMode _ rest hr rfl rfl

/-- An operation that stores the host's two fields and sends them (R204). -/
theorem run_displayControlOp (o : HostOp) (on : Bool) (b : BitVec 3) (hr : s.refused = none)
    (hcs : s.cs = .deasserted) (hi : s.input = .op o :: rest)
    (hop : runOp Config.params o (s.setInput rest) =
      .next (((s.setInput rest).setHost on b).issue (displayControlEvents on b))) :
    Sys2Proof.core.run 4 s = .next (((s.setHost on b).setDisplay on b).afterCommand rest) :=
  run_of_op 3 s _ o rest _ hr hi hop (run_displayControl _ on b rest hr hcs rfl)

end

/-- `x & 0x07` as arithmetic on the byte (R205). -/
theorem brightnessArg_some (p : Params) (x : Byte) : brightnessArg p (some x) = BitVec.ofNat 3 (x.toNat % 8) := by
  apply BitVec.eq_of_toNat_eq
  simp [brightnessArg]

/-- Settles O43: the call, the display-control transaction, the write-mode transaction. -/
theorem initOperation : Obligations.InitOperation :=
  fun s rest hr hcs hi => ⟨_, run_init s rest hr hcs hi, rfl⟩

/-- Settles O44: each setter stores and sends both fields, the brightness as its rule gives it. -/
theorem displayControlOperations : Obligations.DisplayControlOperations := by
  intro s rest hr hcs endsWith
  have ends (o : HostOp) (on : Bool) (b : BitVec 3) (hi : s.input = .op o :: rest)
      (hop : runOp Config.params o (s.setInput rest) =
        .next (((s.setInput rest).setHost on b).issue (displayControlEvents on b))) : endsWith on b :=
    ⟨_, run_displayControlOp s rest o on b hr hcs hi hop, rfl⟩
  refine ⟨fun x hi => ?_, fun hi => ?_, fun on hi => ?_⟩
  · rw [← brightnessArg_some Config.params]
    exact ends _ _ _ hi rfl
  · exact ends _ _ _ hi rfl
  · exact ends _ _ _ hi rfl

/-! ### `scanKeys` -/

/-- The masked block of the four key bytes a scan draws, the first of them draw `n` (R182, R212). -/
def scannedBlock (n : Nat) : Vector Byte 4 :=
  #v[Config.keyMemory 0 n &&& Config.keyMask, Config.keyMemory 1 (n + 1) &&& Config.keyMask,
    Config.keyMemory 2 (n + 2) &&& Config.keyMask, Config.keyMemory 3 (n + 3) &&& Config.keyMask]

/-- The read transaction draws five bytes, of which the first comes with the command byte; then the host masks, restores
write mode, and counts (R211 to R216). -/
theorem run_scanKeys (s : State) (rest : List Input) (hr : s.refused = none) (hcs : s.cs = .deasserted)
    (hi : s.input = .op .scanKeys :: rest) :
    Sys2Proof.core.run 13 s = .next
      ((({ s with draws := s.draws + 5 }.setModes .write).afterCommand rest).setKeys
        (.result (keyPressed Config.keyPolicy (scannedBlock (s.draws + 1))) (scannedBlock (s.draws + 1)))) := by
  refine run_of_op 12 s _ .scanKeys rest _ hr hi rfl ?_
  refine run_of_run 7 5 _ _ _ (readTransactionReturnsFourBytes _
    (.maskKeys :: (writeModeEvents ++ .countKeys :: rest)) hr hcs rfl) ?_
  refine run_of_step 4 _ _ _ (stepWith_input _ _ .maskKeys _ hr rfl) ?_
  refine run_of_run 3 1 _ _ _ (run_writeMode _ (.countKeys :: rest) hr rfl rfl) ?_
  exact run_of_step 0 _ _ _ (stepWith_input _ _ .countKeys rest hr rfl) rfl

/-- Settles O32: the events the call puts before the rest of the input, and the state their run ends in. -/
theorem scanKeysOperation : Obligations.ScanKeysOperation := by
  intro s rest hr hcs hi
  refine ⟨⟨_, scanKeysEvents, stepWith_input _ s _ rest hr hi, rfl, by decide, rfl⟩, ?_⟩
  exact ⟨_, run_scanKeys s rest hr hcs hi, ⟨scannedBlock (s.draws + 1), rfl, rfl⟩, rfl, rfl, rfl, rfl, rfl, rfl, rfl,
    rfl, rfl, rfl, hr, rfl⟩

/-! ### The block an operation sends -/

@[simp] theorem maskAddress_toNat (address : Nat) : (maskAddress address).toNat = address % 16 :=
  BitVec.toNat_ofNat address 4

/-- The clamp of R208 keeps the data within the buffer. -/
theorem length_blockBytes (buf : Vector Byte 16) (a : BitVec 4) (length : Nat) :
    (blockBytes buf a (clampLength a length)).length = min length (16 - a.toNat) := by
  simp [blockBytes, clampLength]

/-- The data are the buffer's bytes from the target address on (R208). -/
theorem blockBytes_getElem (buf : Vector Byte 16) (a : BitVec 4) (n i : Nat) (hi : i < (blockBytes buf a n).length)
    (h : a.toNat + i < 16) : (blockBytes buf a n)[i] = buf[a.toNat + i] := by
  simp [blockBytes]

/-- The block operations, each with the one block it sends, by target address and data (R207 to R210). -/
inductive BlockOp : HostOp → BitVec 4 → List Byte → Prop where
  | writeByte (d : Byte) (address : Nat) : BlockOp (.writeByte d address) (maskAddress address) [d]
  | writeBlock (buf : Vector Byte 16) (length address : Option Nat) (a : BitVec 4)
    (ha : a = maskAddress (address.getD 0)) :
    BlockOp (.writeBlock buf length address) a (blockBytes buf a (clampLength a (length.getD 16)))
  | clearScreen : BlockOp .clearScreen 0 (List.replicate 16 0)

/-- The step at a data byte before any data-setting command (R164). -/
theorem step_modeUnknown (s : State) (d : Byte) (es : List Input) (hr : s.refused = none)
    (hi : s.input = .xfer d :: es) (hcs : s.cs = .asserted) (hseq : s.seq = .addrData) (hrw : s.rw = .bot) :
    step s = refuse .modeUnknown (s.setInput es) := by
  have hdec : decode s.seq d = .ok (.data d) := by rw [hseq]; rfl
  rw [step_of_exchanged s _ es d _ hr hi rfl hcs hdec]
  exact exec_data_modeUnknown d _ hrw

/-- A block write while `RW` is unknown: selected and addressed, the chip refuses the first data byte (R164, R220). -/
theorem run_block_modeUnknown (s : State) (a : BitVec 4) (d : Byte) (bs : List Byte) (rest : List Input)
    (hr : s.refused = none) (hcs : s.cs = .deasserted) (hrw : s.rw = .bot)
    (hi : s.input = blockEvents a (d :: bs) ++ rest) :
    ∃ t, Sys2Proof.core.run 3 s = .refused (.event .modeUnknown t) ∧ t.dm = s.dm := by
  have hi' : s.input = .csAssert :: .xfer (encode (.addr a)) :: .xfer d :: (bs.map .xfer ++ .csDeassert :: rest) := by
    simp [hi, blockEvents, xact]
  refine ⟨_, run_of_step 2 _ _ _ (step_csAssert s _ hr hi' hcs)
    (run_of_step 1 _ _ _ (step_addr _ a _ hr rfl rfl rfl)
      (run_of_step_refused 0 _ _ (step_modeUnknown _ d _ hr rfl rfl rfl hrw))), rfl⟩

section
variable (o : HostOp) (a : BitVec 4) (bs : List Byte) (h : BlockOp o a bs)
include h

theorem runOp_of_blockOp (p : Params) (s : State) : runOp p o s = .next (s.issue (blockEvents a bs)) := by
  cases h with
  | writeByte d address => rfl
  | writeBlock buf length address _ ha => subst ha; rfl
  | clearScreen => rw [← clearScreenEvents_eq]; rfl

/-- No block operation sends a byte past address 15 (R208, R209). -/
theorem blockOp_fits : a.toNat + bs.length ≤ 16 := by
  have ha : a.toNat < 16 := a.isLt
  cases h with
  | writeByte d address => exact ha
  | writeBlock buf length address => rw [length_blockBytes]; omega
  | clearScreen => decide

variable (s : State) (rest : List Input)

/-- A block operation in write mode, from its call to its end. -/
theorem run_blockOp (hr : s.refused = none) (hcs : s.cs = .deasserted) (hrw : s.rw = .known .write)
    (hi : s.input = .op o :: rest) :
    ∃ t : State, Sys2Proof.core.run (bs.length + 4) s = .next t ∧ WritesBlock a.toNat bs s t ∧
      (∀ p : Fin 17, p.val = a.toNat + bs.length → t.ptr = .known p) ∧ t.cs = .deasserted ∧ t.seq = .idle ∧
      t.input = rest := by
  obtain ⟨t, ht, hw, hend⟩ := run_block ((s.setInput rest).issue (blockEvents a bs)) a bs rest hr hcs hrw rfl
    (blockOp_fits o a bs h)
  have hcall : WritesBlock a.toNat [] s ((s.setInput rest).issue (blockEvents a bs)) :=
    writesBlock_nil _ _ _ rfl (by constructor <;> rfl) (by constructor <;> rfl)
  exact ⟨t, run_of_op _ s _ o rest _ hr hi (runOp_of_blockOp o a bs h _ _) ht,
    writesBlock_append _ [] bs s _ t hcall hw, hend⟩

/-- A block operation in read mode: its data are lost (R207, R316). -/
theorem run_blockOp_discarding (hr : s.refused = none) (hcs : s.cs = .deasserted) (hrw : s.rw = .known .read)
    (hi : s.input = .op o :: rest) :
    ∃ t : State, Sys2Proof.core.run (bs.length + 4) s = .next t ∧ KeepsMemory s t ∧ t.cs = .deasserted ∧
      t.seq = .idle ∧ t.input = rest := by
  obtain ⟨t, ht, hdm, -, htcs, hseq, hin, hl, hh⟩ := readModeLosesABlockWrite
    ((s.setInput rest).issue (blockEvents a bs)) a bs rest hr hcs hrw rfl (blockOp_fits o a bs h)
  have hcall : KeepsMemory s ((s.setInput rest).issue (blockEvents a bs)) :=
    ⟨rfl, by constructor <;> rfl, by constructor <;> rfl⟩
  exact ⟨t, run_of_op _ s _ o rest _ hr hi (runOp_of_blockOp o a bs h _ _) ht,
    keepsMemory_trans s _ t hcall ⟨hdm, hl, hh⟩, htcs, hseq, hin⟩

/-- A block operation that sends a data byte while `RW` is unknown: the fourth step refuses that byte (R164, R220). -/
theorem run_blockOp_modeUnknown (hr : s.refused = none) (hcs : s.cs = .deasserted) (hrw : s.rw = .bot)
    (hi : s.input = .op o :: rest) (hbs : bs ≠ []) :
    ∃ t, Sys2Proof.core.run 4 s = .refused (.event .modeUnknown t) ∧ t.dm = s.dm := by
  obtain ⟨d, bs, rfl⟩ := List.exists_cons_of_ne_nil hbs
  obtain ⟨t, ht, hdm⟩ := run_block_modeUnknown ((s.setInput rest).issue (blockEvents a (d :: bs))) a d bs rest hr hcs
    hrw rfl
  exact ⟨t, run_of_op 3 s _ o rest _ hr hi (runOp_of_blockOp o a _ h _ _) ht, hdm⟩

end

/-- Settles O45: the block each operation sends, in write mode written and in read mode lost. -/
theorem blockOperations : Obligations.BlockOperations := by
  intro s rest hr hcs
  refine ⟨fun d address hrw hi => ?_, fun d address hrw hi => ?_, ?_⟩
  · obtain ⟨t, ht, hw, -, htcs, -, hin⟩ := run_blockOp _ _ _ (.writeByte d address) s rest hr hcs hrw hi
    rw [maskAddress_toNat] at hw
    exact ⟨t, ht, hw.written 0 (by simp), fun b hb => hw.frame b (by simp; omega), hin, htcs, hw.latches⟩
  · obtain ⟨t, ht, hk, htcs, -, hin⟩ :=
      run_blockOp_discarding _ _ _ (.writeByte d address) s rest hr hcs hrw hi
    exact ⟨t, ht, hk.dm, hin, htcs, hk.latches⟩
  · intro buf length address hrw hi a n
    obtain ⟨target, htarget⟩ : ∃ target, target = maskAddress (address.getD 0) := ⟨_, rfl⟩
    have ha : target.toNat = a := by rw [htarget, maskAddress_toNat]
    have hn : (blockBytes buf target (clampLength target (length.getD 16))).length = n := by
      rw [length_blockBytes, ha]
    obtain ⟨t, ht, hw, hptr, htcs, -, hin⟩ :=
      run_blockOp _ _ _ (.writeBlock buf length address target htarget) s rest hr hcs hrw hi
    rw [hn] at ht
    refine ⟨t, ht, fun b hb hlo hhi => ?_, fun b hb => hw.frame b (by rwa [hn, ha]), hin,
      fun p hp => hptr p (by rwa [hn, ha]), htcs, hw.latches⟩
    obtain ⟨i, rfl⟩ := Nat.exists_eq_add_of_le hlo
    have hwi := hw.written i (by omega)
    rw [blockBytes_getElem _ _ _ i _ (by omega)] at hwi
    simpa only [ha] using hwi

/-- Settles O46: the block of sixteen zeros from address 0 on. -/
theorem clearScreenOperation : Obligations.ClearScreenOperation := by
  intro s rest hr hcs hrw hi
  obtain ⟨t, ht, hw, hptr, htcs, hseq, hin⟩ := run_blockOp _ _ _ .clearScreen s rest hr hcs hrw hi
  refine ⟨t, ht, fun a => ?_, hptr 16 rfl, hin, htcs, hseq, hw.latches, hw.host⟩
  have hwa := hw.written a.val (by simp)
  rwa [List.getElem_replicate, show (0 : BitVec 4).toNat = 0 from rfl, Nat.zero_add] at hwa

/-! ### Bus traces -/

/-- The bytes up to the end of the transaction under way (R202). -/
theorem busTraceFrom_xfers (cur cs : List Byte) (es : List Input) :
    busTraceFrom cur (cs.map .xfer ++ .csDeassert :: es) = (cur ++ cs.map flipByte) :: busTrace es := by
  induction cs generalizing cur with
  | nil => simp [busTraceFrom, busTrace]
  | cons c cs ih => simp [busTraceFrom, ih]

/-- A transaction puts its bytes on the bus, each flipped once (R202). -/
theorem busTrace_xact (cs : List Byte) (es : List Input) :
    busTrace (xact cs ++ es) = cs.map flipByte :: busTrace es := by
  simpa [xact, busTrace, busTraceFrom] using busTraceFrom_xfers [] cs es

theorem busTrace_xact_last (cs : List Byte) : busTrace (xact cs) = [cs.map flipByte] := by
  simpa [busTrace, busTraceFrom] using busTrace_xact cs []

theorem encode_addr_eq_ofNat (a : BitVec 4) : encode (.addr a) = BitVec.ofNat 8 (0xC0 + a.toNat) := by
  revert a; decide

theorem encode_dctrl_eq_ofNat (n : Bool) (b : BitVec 3) :
    encode (.dctrl n b) = BitVec.ofNat 8 (0x80 + 8 * n.toNat + b.toNat) := by
  revert n b; decide

theorem encode_dctrl_on_eq_or (b : BitVec 3) : encode (.dctrl true b) = 0x88 ||| b.zeroExtend 8 := by
  revert b; decide

/-- Settles O47: the one or two transactions of each operation, and the bytes of each flipped. -/
theorem busTracesOfDriverOperations : Obligations.BusTracesOfDriverOperations := by
  intro p s hs trace control
  have traced (o : HostOp) (u : State) (es : List Input) (tr : List (List Byte)) (hu : u.input = [])
      (hop : runOp p o s = .next (u.issue es)) (htr : busTrace es = tr) : trace o tr :=
    ⟨_, hop, by rw [State.issue_input, hu, List.append_nil, htr]⟩
  have controls (o : HostOp) (on : Bool) (b : BitVec 3)
      (hop : runOp p o s = .next ((s.setHost on b).issue (displayControlEvents on b))) :
      trace o [[control on b]] :=
    traced o (s.setHost on b) _ _ hs hop (by rw [displayControlEvents, busTrace_xact_last, encode_dctrl_eq_ofNat]; rfl)
  have blocks (o : HostOp) (a : BitVec 4) (bs : List Byte) (h : BlockOp o a bs) :
      trace o [flipByte (BitVec.ofNat 8 (0xC0 + a.toNat)) :: bs.map flipByte] :=
    traced o s _ _ hs (runOp_of_blockOp o a bs h p s)
      (by rw [blockEvents, busTrace_xact_last, encode_addr_eq_ofNat]; rfl)
  refine ⟨?_, fun x => ?_, fun on => ?_, fun d address => ?_, fun buf length address => ?_, ?_, ?_⟩
  · refine traced .init (s.setHost true p.brtDefault) _ _ hs rfl ?_
    rw [displayControlEvents, busTrace_xact, encode_dctrl_on_eq_or]
    rfl
  · rw [← brightnessArg_some p]
    exact controls _ _ _ rfl
  · exact controls _ _ _ rfl
  · simpa using blocks _ _ _ (.writeByte d address)
  · simpa [blockBytes, clampLength] using blocks _ _ _ (.writeBlock buf (some length) (some address) _ rfl)
  · exact blocks _ _ _ .clearScreen
  · exact traced .scanKeys s _ _ hs rfl (by decide)

/-! ### Admission -/

/-- Where a driver operation ends: the rest of the input is still to do, the chip is deselected and its mode known, and
the run bears no new mark (R220). -/
structure EndsAdmitted (s : State) (rest : List Input) (t : State) : Prop where
  input : t.input = rest
  refused : t.refused = none
  cs : t.cs = .deasserted
  seq : t.seq = .idle
  rw : t.rw ≠ .bot
  faults : t.faults = s.faults

section
variable (s : State) (rest : List Input)

theorem blockOp_admitted (o : HostOp) (a : BitVec 4) (bs : List Byte) (h : BlockOp o a bs) (hr : s.refused = none)
    (hcs : s.cs = .deasserted) (hrw : s.rw ≠ .bot) (hi : s.input = .op o :: rest) :
    ∃ k t, Sys2Proof.core.run k s = .next t ∧ EndsAdmitted s rest t := by
  have ends (t : State) (hl : SameLatches s t) (hin : t.input = rest) (htcs : t.cs = .deasserted)
      (hseq : t.seq = .idle) : EndsAdmitted s rest t :=
    ⟨hin, hl.refused.trans hr, htcs, hseq, hl.rw ▸ hrw, hl.faults⟩
  cases hm : s.rw with
  | bot => exact absurd hm hrw
  | known m =>
    cases m with
    | write =>
      obtain ⟨t, ht, hw, -, htcs, hseq, hin⟩ := run_blockOp o a bs h s rest hr hcs hm hi
      exact ⟨_, t, ht, ends t hw.latches hin htcs hseq⟩
    | read =>
      obtain ⟨t, ht, hk, htcs, hseq, hin⟩ := run_blockOp_discarding o a bs h s rest hr hcs hm hi
      exact ⟨_, t, ht, ends t hk.latches hin htcs hseq⟩

theorem driverOp_admitted (o : HostOp) (ho : isDriverOp o = true) (hr : s.refused = none) (hcs : s.cs = .deasserted)
    (hrw : s.rw ≠ .bot) (hi : s.input = .op o :: rest) :
    ∃ k t, Sys2Proof.core.run k s = .next t ∧ EndsAdmitted s rest t := by
  cases o with
  | init => exact ⟨7, _, run_init s rest hr hcs hi, rfl, hr, rfl, rfl, by simp [State.afterCommand], rfl⟩
  | setBrightness x =>
    exact ⟨4, _, run_displayControlOp s rest _ _ _ hr hcs hi rfl, rfl, hr, rfl, rfl, hrw, rfl⟩
  | setDisplayOn on =>
    exact ⟨4, _, run_displayControlOp s rest _ _ _ hr hcs hi rfl, rfl, hr, rfl, rfl, hrw, rfl⟩
  | writeByte d address => exact blockOp_admitted s rest _ _ _ (.writeByte d address) hr hcs hrw hi
  | writeBlock buf length address =>
    exact blockOp_admitted s rest _ _ _ (.writeBlock buf length address _ rfl) hr hcs hrw hi
  | clearScreen => exact blockOp_admitted s rest _ _ _ .clearScreen hr hcs hrw hi
  | scanKeys => exact ⟨13, _, run_scanKeys s rest hr hcs hi, rfl, hr, rfl, rfl, by simp [State.afterCommand], rfl⟩
  | _ => cases ho

end

/-- A length other than 0 leaves at least one data byte, wherever the block begins (R208). -/
theorem blockBytes_ne_nil (buf : Vector Byte 16) (a : BitVec 4) (length : Option Nat) (h : length ≠ some 0) :
    blockBytes buf a (clampLength a (length.getD 16)) ≠ [] := by
  have ha : a.toNat < 16 := a.isLt
  have hlen : 0 < length.getD 16 := by
    cases length with
    | none => decide
    | some n => exact Nat.pos_of_ne_zero fun hn => h (congrArg some hn)
  rw [← List.length_pos_iff, length_blockBytes]
  omega

/-- Settles O48: each operation runs to its end; with the mode unknown the first data byte of a block is refused. -/
theorem driverOperationsAreAdmitted : Obligations.DriverOperationsAreAdmitted := by
  refine ⟨fun s o rest ho hr hcs hrw hi => ?_, fun s d address rest hr hcs hrw hi => ?_⟩
  · obtain ⟨k, t, hrun, hend⟩ := driverOp_admitted s rest o ho hr hcs hrw hi
    exact ⟨k, t, hrun, hend.input, hend.refused, hend.cs, hend.seq, hend.rw, hend.faults⟩
  · obtain hi | hi | ⟨buf, length, start, hlen, hi⟩ := hi
    · exact run_blockOp_modeUnknown _ _ _ (.writeByte d address) s rest hr hcs hrw hi (by simp)
    · exact run_blockOp_modeUnknown _ _ _ .clearScreen s rest hr hcs hrw hi (by simp)
    · exact run_blockOp_modeUnknown _ _ _ (.writeBlock buf length start _ rfl) s rest hr hcs hrw hi
        (blockBytes_ne_nil buf _ length hlen)

end Sys2Proof.Machine
end

section
/-!
PROOFS of the board-layout family: the parameters, the bits an edit of the shadow changes, the flush, and the adapter's
operations.
-/

namespace Sys2Proof.Machine

/-! ### The parameters of the run -/

/-- The map that stands in for one R241 rules out is itself one it allows. -/
theorem typeB_distinct : Config.typeB.Distinct := by
  unfold Config.typeB
  split
  · assumption
  · decide

theorem fontOf_lt (hl : Config.layout ≠ .typeB) (ch : Byte) : (Config.fontOf ch).toNat < 256 := by
  have hlow : (Config.font ch &&& 0x00FF).toNat < 256 := by
    rw [BitVec.toNat_and]
    exact Nat.lt_succ_of_le Nat.and_le_right
  unfold Config.fontOf
  cases h : Config.layout with
  | typeB => exact absurd h hl
  | typeA => exact hlow
  | typeC => exact hlow

theorem numCols_le_eight (p : Params) : p.numCols ≤ 8 := p.lastCol.isLt

/-- Settles O59: the font is masked wherever the layout is not Type B, and a column is its own residue modulo 8. -/
theorem boardParametersAreAllowed : Obligations.BoardParametersAreAllowed := by
  refine ⟨typeB_distinct, numCols_pos _, numCols_le_eight _, ?_, fun c hc => ?_⟩
  · exact or_iff_not_imp_left.2 fontOf_lt
  · have hmod : c % 8 = c := Nat.mod_eq_of_lt (hc.trans_le (numCols_le_eight _))
    exact ⟨hmod, hmod⟩

/-! ### The flush -/

/-- A range with an unknown byte does not read. -/
theorem readRange_unknown (m : Memory) (a n i : Nat) (hi : i < n) (h : memRead m (a + i) = .bot) :
    readRange m a n = none := by
  cases hbs : readRange m a n with
  | none => rfl
  | some bs =>
    obtain ⟨hlen, hread⟩ := readRange_some m a n bs hbs
    cases h.symm.trans (hread i (by omega))

/-- Settles O56: the flush reads the shadow from the smallest changed address to the largest. -/
theorem flushCoversTheSmallestRange : Obligations.FlushCoversTheSmallestRange := by
  refine ⟨fun sh t lo hi hlo hhi hb => ?_, fun _ => rfl⟩
  have hflush := flushEvents_range sh t lo hi hlo hhi hb
  have horder : lo.val ≤ hi.val := (hb lo hlo).2
  refine ⟨fun hknown => ?_, ?_⟩
  · have hsome : (readRange sh lo.val (hi.val - lo.val + 1)).isSome = true :=
      readRange_isSome sh lo.val _ fun i hi' =>
        hknown ⟨lo.val + i, by omega⟩ (Nat.le_add_right _ _) (Fin.mk_le_of_le_val (by omega))
    obtain ⟨bs, hbs⟩ := Option.isSome_iff_exists.1 hsome
    exact ⟨bs, by rw [hflush, hbs]; rfl, readRange_some sh lo.val _ bs hbs⟩
  · rintro ⟨a, hla, hah, ha⟩ s after
    obtain ⟨i, hi'⟩ := Nat.exists_eq_add_of_le (Fin.le_def.1 hla)
    have hnone : readRange sh lo.val (hi.val - lo.val + 1) = none :=
      readRange_unknown sh lo.val _ i (by omega) (hi' ▸ ha)
    exact commitEdit_unknown s _ after (.inr ⟨sh, t, rfl, by rw [hflush, hnone]; rfl⟩)

/-- An admitted edit with nothing to do after its flush. -/
theorem commitEdit_some_last (s : State) (e : ShadowEdit) (sh : Memory) (a : List (Fin 16)) (es : List Input)
    (he : e = some (sh, a)) (hf : flushEvents sh a = some es) :
    commitEdit e [] s = .next ((s.setShadow sh).issue es) := by
  rw [commitEdit_some s e sh a es [] he hf, List.append_nil]

/-! ### One call of `putc` for each kind of character -/

section
variable (p : Params) (ch : Byte) (s : State)

theorem isReturn_iff : isReturn ch = true ↔ ch = 0x0A ∨ ch = 0x0D := by
  simp only [isReturn, Bool.or_eq_true, beq_iff_eq]

theorem isPoint_iff : isPoint ch = true ↔ ch = 0x2E ∨ ch = 0x2C := by
  simp only [isPoint, Bool.or_eq_true, beq_iff_eq]

theorem isPrintable_iff : isPrintable ch = true ↔ 0x20 ≤ ch.toNat ∧ ch.toNat ≤ 0x7E := by
  simp only [isPrintable, Bool.and_eq_true, decide_eq_true_eq]

/-- No return is printable. -/
theorem not_isReturn_of_ge (h : 0x20 ≤ ch.toNat) : ¬ isReturn ch = true := by
  rw [isReturn_iff]
  rintro (rfl | rfl) <;> simp at h

/-- Both points are printable: `putc` asks for a point first (R245). -/
theorem isPrintable_of_isPoint (h : isPoint ch = true) : isPrintable ch = true := by
  obtain rfl | rfl := (isPoint_iff ch).1 h <;> decide

theorem boardPutc_return (h : isReturn ch = true) : boardPutc p ch s = .next (s.setCol 0) := by
  rw [boardPutc, if_pos h]

theorem boardPutc_isPoint (h : isPoint ch = true) :
    boardPutc p ch s = if s.col = 0 then .next s else commitEdit (setPoint p (s.col - 1) s.shadow) [] s := by
  have hlo := ((isPrintable_iff ch).1 (isPrintable_of_isPoint ch h)).1
  rw [boardPutc, if_neg (not_isReturn_of_ge ch hlo), if_pos h]

theorem boardPutc_printable (h : isPrintable ch = true) (hp : ¬ isPoint ch = true) :
    boardPutc p ch s = commitEdit (writeChar p s.col ch s.shadow) [.cursorNext] s := by
  rw [boardPutc, if_neg (not_isReturn_of_ge ch ((isPrintable_iff ch).1 h).1), if_neg hp, if_pos h]

theorem boardPutc_other (hr : ¬ isReturn ch = true) (h : ¬ isPrintable ch = true) : boardPutc p ch s = .next s := by
  rw [boardPutc, if_neg hr, if_neg (mt (isPrintable_of_isPoint ch) h), if_neg h]

/-- A point whose byte is unknown, written to the right of its column (R260). -/
theorem boardPutc_point_unknown (c : Nat) (h : isPoint ch = true) (hc : s.col = c + 1)
    (hpt : setPoint p c s.shadow = none) : boardPutc p ch s = refuse .shadowUnknown s := by
  rw [boardPutc_isPoint p ch s h, if_neg (by omega), hc, Nat.add_sub_cancel]
  exact commitEdit_unknown s _ [] (.inl hpt)

end

/-- Settles O49: one call for each kind of character that takes no cell. -/
theorem putcControlCharacters : Obligations.PutcControlCharacters := by
  intro p ch s
  refine ⟨fun h => ?_, fun h hc => ?_, fun h hc => ⟨fun sh a es hpt hf => ?_, fun hpt => ?_⟩, fun hnl hcr h => ?_⟩
  · exact boardPutc_return p ch s ((isReturn_iff ch).2 h)
  · rw [boardPutc_isPoint p ch s ((isPoint_iff ch).2 h), if_pos hc]
  · rw [boardPutc_isPoint p ch s ((isPoint_iff ch).2 h), if_neg hc]
    exact commitEdit_some_last s _ sh a es hpt hf
  · exact boardPutc_point_unknown p ch s (s.col - 1) ((isPoint_iff ch).2 h) (by omega) hpt
  · refine boardPutc_other p ch s (mt (isReturn_iff ch).1 (not_or.2 ⟨hnl, hcr⟩)) (mt (isPrintable_iff ch).1 ?_)
    omega

/-- The cursor moves to the next column, or from the last one to the first (R246). -/
theorem succ_mod_eq_wrap (c n : Nat) (h : c < n) : (c + 1) % n = if c + 1 = n then 0 else c + 1 := by
  split
  · rw [‹c + 1 = n›, Nat.mod_self]
  · exact Nat.mod_eq_of_lt (by omega)

/-- Settles O50: the cell's edit is committed with the cursor's move behind its flush. -/
theorem putcPrintableCharacters : Obligations.PutcPrintableCharacters := by
  intro p ch s hlo hhi hperiod hcomma
  rw [boardPutc_printable p ch s ((isPrintable_iff ch).2 ⟨hlo, hhi⟩)
    (mt (isPoint_iff ch).1 (not_or.2 ⟨hperiod, hcomma⟩))]
  refine ⟨fun sh a es hw hf => ?_, commitEdit_unknown s _ _, fun hc => ?_⟩
  · rw [commitEdit_some s _ sh a es _ hw hf, State.issue, List.append_assoc]
    rfl
  · rw [← succ_mod_eq_wrap s.col p.numCols hc]
    rfl

/-! ### The clamped column -/

theorem clampCol_of_lt (p : Params) (c : Nat) (h : c < p.numCols) : clampCol p c = c :=
  min_eq_left (Nat.le_sub_one_of_lt h)

theorem clampCol_succ_of_ge (p : Params) (c : Nat) (h : p.numCols ≤ c) : clampCol p c + 1 = p.numCols := by
  have := numCols_pos p
  unfold clampCol
  omega

/-- Settles O57: both operations use `clampCol`, which is the only column the statement's conditions allow. -/
theorem locateWriteCellAndGlyph : Obligations.LocateWriteCellAndGlyph := by
  intro p s c
  refine ⟨⟨s.setCol (clampCol p c), rfl, rfl, clampCol_lt p c, clampCol_of_lt p c, clampCol_succ_of_ge p c⟩, ?_, rfl⟩
  intro ch c' sh a es _ hin hout hw hf
  have hc' : clampCol p c = c' := by
    obtain hc | hc := lt_or_ge c p.numCols
    · rw [clampCol_of_lt p c hc, hin hc]
    · exact Nat.succ.inj ((clampCol_succ_of_ge p c hc).trans (hout hc).symm)
  exact commitEdit_some_last s _ sh a es (hc'.symm ▸ hw) hf

/-- A character whose cell reads an unknown byte, written to a column of the board (R260). -/
theorem boardWriteCell_unknown (p : Params) (c : Nat) (ch : Byte) (s : State) (hc : c < p.numCols)
    (h : writeChar p c ch s.shadow = none) : boardWriteCell p c ch s = refuse .shadowUnknown s := by
  rw [boardWriteCell, clampCol_of_lt p c hc]
  exact commitEdit_unknown s _ [] (.inl h)

/-! ### An edit of one bit -/

theorem editBit_of_known (sh : Memory) (a : Fin 16) (k : Fin 8) (v : Bool) (b : Byte) (h : memRead sh a.val = .known b) :
    editBit sh a k v = some (memWrite sh a (withBit b k v)) := by
  simp only [editBit, h]

theorem editBit_of_unknown (sh : Memory) (a : Fin 16) (k : Fin 8) (v : Bool) (h : memRead sh a.val = .bot) :
    editBit sh a k v = none := by
  simp only [editBit, h]

/-- From byte `b` to `b'` bit `k` became `v` and no other bit changed. -/
structure AssignsBit (b b' : Byte) (k : Nat) (v : Bool) : Prop where
  assigned : b'.getLsbD k = v
  kept : ∀ j, j ≠ k → b'.getLsbD j = b.getLsbD j

theorem withBit_assignsBit (b : Byte) (k : Fin 8) (v : Bool) : AssignsBit b (withBit b k v) k.val v where
  assigned := by rw [withBit_getLsbD, if_pos rfl]
  kept j hj := by rw [withBit_getLsbD, if_neg hj]

section
variable (p : Params) (c : Nat) (sh : Memory)

/-- The point of a column, where it is bit `k` of the byte at address `a`: that bit is set, and nothing else changes. -/
theorem setPoint_known (a : Fin 16) (k : Fin 8) (b : Byte)
    (hpt : setPoint p c sh = (editBit sh a k true).map fun sh' => (sh', [a])) (hb : memRead sh a.val = .known b) :
    ∃ sh' b', setPoint p c sh = some (sh', [a]) ∧ memRead sh' a.val = .known b' ∧ b'.getLsbD k.val = true ∧
      (∀ j, j ≠ k.val → b'.getLsbD j = b.getLsbD j) ∧ (∀ x, x ≠ a.val → memRead sh' x = memRead sh x) := by
  have hbit := withBit_assignsBit b k true
  refine ⟨memWrite sh a (withBit b k true), withBit b k true, ?_, memRead_memWrite_self _ _ _, hbit.assigned, hbit.kept,
    fun x hx => memRead_memWrite_other _ _ _ _ hx⟩
  rw [hpt, editBit_of_known sh a k true b hb]
  rfl

theorem setPoint_unknown (a : Fin 16) (k : Fin 8)
    (hpt : setPoint p c sh = (editBit sh a k true).map fun sh' => (sh', [a])) (hb : memRead sh a.val = .bot) :
    setPoint p c sh = none := by
  rw [hpt, editBit_of_unknown sh a k true hb]
  rfl

/-- The point of a column of Type A or C (R250, R255). -/
theorem setPoint_of_grid (hl : p.layout ≠ .typeB) :
    setPoint p c sh =
      (editBit sh (evenAddr (p.colGrid c)) p.dpBit true).map fun sh' => (sh', [evenAddr (p.colGrid c)]) := by
  rw [← pointInGrid_eq_editBit]
  unfold setPoint
  cases h : p.layout with
  | typeB => exact absurd h hl
  | typeA => rfl
  | typeC => rfl

/-- The point of a column of Type B (R253). -/
theorem setPoint_of_typeB (hl : p.layout = .typeB) :
    setPoint p c sh = (editBit sh p.dpAddr (p.colBit c) true).map fun sh' => (sh', [p.dpAddr]) := by
  rw [setPoint, hl]
  rfl

end

/-- Settles O52: the point is bit `DP_BIT` of the even byte of the column's grid. -/
theorem gridDecimalPoint : Obligations.GridDecimalPoint := by
  intro p c sh hl
  have hpt := setPoint_of_grid p c sh hl
  refine ⟨fun b => setPoint_known p c sh _ _ b hpt, ?_⟩
  rintro hb ch s hch rfl hc
  exact boardPutc_point_unknown p ch s c ((isPoint_iff ch).2 hch) hc (setPoint_unknown p c _ _ _ hpt hb)

/-- Settles O54: the point is the column's bit of the decimal-point byte. -/
theorem segmentDecimalPoint : Obligations.SegmentDecimalPoint := by
  intro p c sh hl
  have hpt := setPoint_of_typeB p c sh hl
  refine ⟨fun b => setPoint_known p c sh _ _ b hpt, ?_⟩
  rintro hb ch s hch rfl hc
  exact boardPutc_point_unknown p ch s c ((isPoint_iff ch).2 hch) hc (setPoint_unknown p c _ _ _ hpt hb)

/-! ### A character of Type B -/

theorem writeChar_of_typeB (p : Params) (c : Nat) (ch : Byte) (sh : Memory) (hl : p.layout = .typeB) :
    writeChar p c ch sh = charInSegments p c ch sh := by
  rw [writeChar, hl]

theorem mem_segments : ∀ i : Fin 7, i ∈ segments := by decide

/-- The segment addresses are the first seven of the distinct eight (R241). -/
theorem segments_nodup (p : Params) (h : p.TypeBDistinct) : (segments.map p.segAddr).Nodup :=
  List.Nodup.of_append_left (l₂ := [p.dpAddr]) h

section
variable (p : Params) (k : Fin 8) (pattern : BitVec 16)

theorem editSegments_cons_known (i : Fin 7) (l : List (Fin 7)) (sh : Memory) (b : Byte)
    (h : memRead sh (p.segAddr i).val = .known b) :
    editSegments p k pattern (i :: l) sh =
      editSegments p k pattern l (memWrite sh (p.segAddr i) (withBit b k (pattern.getLsbD i.val))) := by
  simp only [editSegments, editBit_of_known sh _ k _ b h]

theorem editSegments_cons_unknown (i : Fin 7) (l : List (Fin 7)) (sh : Memory)
    (h : memRead sh (p.segAddr i).val = .bot) : editSegments p k pattern (i :: l) sh = none := by
  simp only [editSegments, editBit_of_unknown sh _ k _ h]

/-- With the listed segment bytes known and their addresses distinct, each takes its bit: an edit further on writes
another address (R252). -/
theorem editSegments_known (l : List (Fin 7)) (sh : Memory) (hn : (l.map p.segAddr).Nodup)
    (hk : ∀ i ∈ l, memRead sh (p.segAddr i).val ≠ .bot) :
    ∃ sh', editSegments p k pattern l sh = some sh' ∧
      ∀ i ∈ l, ∀ b, memRead sh (p.segAddr i).val = .known b →
        memRead sh' (p.segAddr i).val = .known (withBit b k (pattern.getLsbD i.val)) := by
  induction l generalizing sh with
  | nil => exact ⟨sh, rfl, nofun⟩
  | cons i l ih =>
    obtain ⟨hi, hn⟩ := List.nodup_cons.1 hn
    have hne : ∀ j ∈ l, (p.segAddr j).val ≠ (p.segAddr i).val := fun j hj he =>
      hi (Fin.ext he ▸ List.mem_map_of_mem hj)
    cases hb : memRead sh (p.segAddr i).val with
    | bot => exact absurd hb (hk i List.mem_cons_self)
    | known b =>
      have hlater (j : Fin 7) (hj : j ∈ l) := memRead_memWrite_other sh (p.segAddr i) (p.segAddr j).val
        (withBit b k (pattern.getLsbD i.val)) (hne j hj)
      obtain ⟨sh', hsh', hread⟩ := ih _ hn fun j hj => by
        rw [hlater j hj]
        exact hk j (List.mem_cons_of_mem _ hj)
      refine ⟨sh', (editSegments_cons_known p k pattern i l sh b hb).trans hsh', List.forall_mem_cons.2 ⟨?_, ?_⟩⟩
      · intro b' hb'
        cases hb.symm.trans hb'
        rw [editSegments_frame p k pattern l _ sh' hsh' _ fun j hj => (hne j hj).symm, memRead_memWrite_self]
      · exact fun j hj b' hb' => hread j hj b' ((hlater j hj).trans hb')

/-- An unknown byte among the listed segments stops the edit: no edit before it writes its address (R260). -/
theorem editSegments_unknown (l : List (Fin 7)) (sh : Memory) (i : Fin 7) (hi : i ∈ l)
    (h : memRead sh (p.segAddr i).val = .bot) : editSegments p k pattern l sh = none := by
  induction l generalizing sh with
  | nil => cases hi
  | cons j l ih =>
    cases hb : memRead sh (p.segAddr j).val with
    | bot => exact editSegments_cons_unknown p k pattern j l sh hb
    | known b =>
      have hne : (p.segAddr i).val ≠ (p.segAddr j).val := fun he => by
        rw [he, hb] at h
        cases h
      have hil : i ∈ l := (List.mem_cons.1 hi).resolve_left fun he => hne (he ▸ rfl)
      rw [editSegments_cons_known p k pattern j l sh b hb]
      exact ih _ hil ((memRead_memWrite_other _ _ _ _ hne).trans h)

end

/-- Settles O53: the seven edits one after the other, each at an address of its own. -/
theorem segmentCharacterAssignsOneBitPerByte : Obligations.SegmentCharacterAssignsOneBitPerByte := by
  intro p c ch sh hl hd
  have hw := writeChar_of_typeB p c ch sh hl
  refine ⟨fun hk => ?_, ?_⟩
  · obtain ⟨sh', hsh', hread⟩ := editSegments_known p (p.colBit c) (p.font ch) segments sh (segments_nodup p hd)
      fun i _ => hk i
    refine ⟨sh', ?_, fun i b hb => ?_, fun a ha => editSegments_frame p _ _ _ sh sh' hsh' a fun i _ => ha i⟩
    · rw [hw, charInSegments, hsh']
      rfl
    · have hbit := withBit_assignsBit b (p.colBit c) ((p.font ch).getLsbD i.val)
      exact ⟨_, hread i (mem_segments i) b hb, hbit.assigned, hbit.kept⟩
  · rintro ⟨i, hi⟩ s rfl hc
    refine boardWriteCell_unknown p c ch s hc ?_
    rw [hw, charInSegments, editSegments_unknown p _ _ segments s.shadow i (mem_segments i) hi]
    rfl

/-! ### An edit of one grid -/

theorem editGrid_of_known (f : BitVec 16 → BitVec 16) (g : Fin 8) (sh : Memory) (w : BitVec 16)
    (h : gridWord sh g = .known w) : editGrid f g sh = some (putGridWord sh g (f w), [evenAddr g, oddAddr g]) := by
  simp only [editGrid, h]

theorem editGrid_of_unknown (f : BitVec 16 → BitVec 16) (g : Fin 8) (sh : Memory) (h : gridWord sh g = .bot) :
    editGrid f g sh = none := by
  simp only [editGrid, h]

/-- The character written in a grid: the icon mask's bits of `w`, every other bit of `pattern` (R249, R254). -/
theorem getLsbD_and_or_and_not (w pattern mask : BitVec 16) (j : Nat) (hj : j < 16) :
    ((w &&& mask) ||| (pattern &&& ~~~mask)).getLsbD j =
      if mask.getLsbD j then w.getLsbD j else pattern.getLsbD j := by
  simp only [BitVec.getLsbD_or, BitVec.getLsbD_and, BitVec.getLsbD_not, hj, decide_true, Bool.true_and]
  cases mask.getLsbD j <;> simp

/-- A character of Type A or C changes its column's grid, under the layout's icon mask (R249, R254). -/
theorem writeChar_of_grid (p : Params) (c : Nat) (ch : Byte) (sh : Memory) (mask : BitVec 16)
    (hmask : mask = if p.layout = .typeA then p.iconMaskA else p.iconMaskC) (hl : p.layout ≠ .typeB) :
    writeChar p c ch sh = editGrid (fun w => (w &&& mask) ||| (p.font ch &&& ~~~mask)) (p.colGrid c) sh := by
  rw [← charInGrid_eq_editGrid, hmask]
  unfold writeChar
  cases h : p.layout with
  | typeB => exact absurd h hl
  | typeA => rfl
  | typeC => rfl

/-- Settles O51: the grid's word is edited under the icon mask, or is unknown. -/
theorem gridCharacterKeepsIcons : Obligations.GridCharacterKeepsIcons := by
  intro p c ch sh mask g hl
  have hw := writeChar_of_grid p c ch sh mask rfl hl
  refine ⟨fun w hg => ?_, ?_⟩
  · exact ⟨_, _, hw.trans (editGrid_of_known _ g sh w hg), gridWord_putGridWord _ _ _,
      getLsbD_and_or_and_not w (p.font ch) mask, memRead_putGridWord_other _ _ _⟩
  · rintro hg s rfl hc
    exact boardWriteCell_unknown p c ch s hc (hw.trans (editGrid_of_unknown _ g _ hg))

/-! ### Icons -/

section
variable (sh : Memory) (g : Fin 8) (w : BitVec 16)

theorem memRead_putGridWord_even : memRead (putGridWord sh g w) (2 * g.val) = .known (lowByte w) := by
  rw [putGridWord, memRead_memWrite_other _ _ _ _ (by simp)]
  exact memRead_memWrite_self _ (evenAddr g) _

theorem memRead_putGridWord_odd : memRead (putGridWord sh g w) (2 * g.val + 1) = .known (highByte w) :=
  memRead_memWrite_self _ (oddAddr g) _

/-- The flush of a grid just written: its two bytes, the low one first (R243). -/
theorem flushEvents_putGridWord :
    flushEvents (putGridWord sh g w) [evenAddr g, oddAddr g] =
      some (blockEvents (BitVec.ofNat 4 (2 * g.val)) [lowByte w, highByte w]) := by
  have horder : evenAddr g ≤ oddAddr g := Fin.le_def.2 (Nat.le_succ _)
  rw [flushEvents_range _ _ (evenAddr g) (oddAddr g) (by simp) (by simp) (by simp [horder]), evenAddr_val, oddAddr_val,
    Nat.add_sub_cancel_left]
  simp only [readRange, memRead_putGridWord_even, memRead_putGridWord_odd, Option.map_some]

end

/-- An icon operation on a known grid: the edited word, and one block of its two bytes (R257, R258). -/
theorem boardIcon_of_known (f : BitVec 16 → BitVec 16) (id : Nat) (s : State) (h : iconGrid id < 8) (w : BitVec 16)
    (hw : gridWord s.shadow ⟨iconGrid id, h⟩ = .known w) :
    boardIcon f id s = .next ((s.setShadow (putGridWord s.shadow ⟨iconGrid id, h⟩ (f w))).issue
      (blockEvents (BitVec.ofNat 4 (2 * iconGrid id)) [lowByte (f w), highByte (f w)])) := by
  rw [boardIcon, dif_pos h]
  exact commitEdit_some_last s _ _ _ _ (editGrid_of_known f _ _ w hw) (flushEvents_putGridWord _ _ _)

theorem iconPattern_getLsbD (id j : Nat) (hj : j < 16) : (iconPattern id).getLsbD j = (id / 2 ^ j % 2 == 1) := by
  rw [iconPattern, BitVec.getLsbD_ofNat, Nat.testBit_eq_decide_div_mod_eq, decide_eq_true hj, Bool.true_and]
  rfl

/-- Settles O55: both operations edit the grid's word with the pattern. -/
theorem iconsPreserveUnrelatedBits : Obligations.IconsPreserveUnrelatedBits := by
  intro s id h w hw edited
  have edits (f : BitVec 16 → BitVec 16) (fbit : Bool → Bool → Bool)
      (hf : ∀ j < 16, (f w).getLsbD j = fbit (w.getLsbD j) ((iconPattern id).getLsbD j)) :
      edited (boardIcon f id s) fbit := by
    refine ⟨_, f w, boardIcon_of_known f id s h w hw, gridWord_putGridWord _ _ _, fun j hj => ?_, fun a ha => ?_, rfl⟩
    · rw [hf j hj, iconPattern_getLsbD id j hj]
    · exact memRead_putGridWord_other _ _ _ _ ha
  refine ⟨edits (fun w => w ||| iconPattern id) or fun j _ => BitVec.getLsbD_or,
    edits (fun w => w &&& ~~~iconPattern id) (fun old bit => old && !bit) fun j hj => ?_⟩
  rw [BitVec.getLsbD_and, BitVec.getLsbD_not, decide_eq_true hj, Bool.true_and]

/-! ### `clearAll` -/

/-- Settles O58: the call clears the shadow, the block of sixteen zeros clears display memory, and the last step brings
the cursor home. -/
theorem clearAllOperation : Obligations.ClearAllOperation := by
  intro s rest hr hcs hrw hi
  obtain ⟨u, hu, hw, -, hucs, huseq, hui⟩ := run_block
    (((s.setInput rest).setShadow zeroMemory).issue (clearScreenEvents ++ [.cursorHome])) 0 (List.replicate 16 0)
    (.cursorHome :: rest) hr hcs hrw (by simp [clearScreenEvents_eq]) (by decide)
  have hhome : step u = .next ((u.setInput rest).setCol 0) :=
    stepWith_input _ u .cursorHome rest (hw.latches.refused.trans hr) hui
  refine ⟨(u.setInput rest).setCol 0, ?_, fun a => ?_, fun a => ?_, rfl, rfl, hucs, huseq, ?_⟩
  · exact run_of_op 20 s _ .clearAll rest _ hr hi rfl (run_of_run 19 1 _ _ _ hu (run_of_step 0 _ _ _ hhome rfl))
  · rw [State.setCol_shadow, State.setInput_shadow, hw.host.shadow]
    exact memRead_zeroMemory a
  · have hwa := hw.written a.val (by simp)
    rwa [List.getElem_replicate, show (0 : BitVec 4).toNat = 0 from rfl, Nat.zero_add] at hwa
  · exact sameLatches_trans s u _ (sameLatches_trans s _ u (by constructor <;> rfl) hw.latches) (by constructor <;> rfl)

end Sys2Proof.Machine
end

section
/-!
PROOFS of the exceptions family: one refusal code per event, what a refusal leaves of the state, and the recorded
faults.
-/

namespace Sys2Proof.Machine

/-! ### One code per event -/

section
variable (f : BitVec 16 → BitVec 16) (id : Nat) (s : State)

/-- An icon outside the eight grids (R256). -/
theorem boardIcon_iconGrid (h : ¬ iconGrid id < 8) : boardIcon f id s = refuse .iconGrid s := by
  rw [boardIcon, dif_neg h]

/-- An icon of a grid of which a shadow byte is unknown (R260). -/
theorem boardIcon_shadowUnknown (h : iconGrid id < 8) (hw : gridWord s.shadow ⟨iconGrid id, h⟩ = .bot) :
    boardIcon f id s = refuse .shadowUnknown s := by
  rw [boardIcon, dif_pos h]
  exact commitEdit_unknown s _ [] (.inl (editGrid_of_unknown f _ s.shadow hw))

end

/-- Settles O13: the event's own stop under each condition of the order. -/
theorem refusalOrder : Obligations.RefusalOrder := by
  refine fun m s => ⟨fun hcs => ⟨?_, ?_⟩, ?_, ?_, ?_, ?_, ?_, ?_, ?_, fun id hid => ?_, fun id hid hw => ?_⟩
  · exact transfer_of_deasserted m s hcs
  · exact csDeassert_of_deasserted s hcs
  · exact csAssert_of_asserted s
  · exact transfer_closed m s
  · exact transfer_readOverrun m s
  · rintro hcs ⟨k, hseq, hk⟩ hm
    rw [transfer_keyRead m k s hcs hseq, if_neg hm, if_neg hk]
    rfl
  · intro hcs hseq hrw
    rw [transfer_addrData m s hcs hseq]
    exact exec_data_modeUnknown m s hrw
  · intro hcs hseq hrw hptr
    rw [transfer_addrData m s hcs hseq]
    exact exec_data_writeOverrun m s hrw hptr
  · exact fun c => transfer_of_refusalByArithmetic m c s
  · exact ⟨boardIcon_iconGrid _ id s (Nat.not_lt.2 hid), boardIcon_iconGrid _ id s (Nat.not_lt.2 hid)⟩
  · exact ⟨boardIcon_shadowUnknown _ id s hid hw, boardIcon_shadowUnknown _ id s hid hw⟩

/-! ### What a refusal leaves of the state -/

/-- An answer given in `s` that can refuse an event by `refuse` only, so that the refused state is `s` but for the mark
(R281). -/
inductive RefusesByMark (s : State) : Host.Outcome State Fault Refusal → Prop where
  | next (t : State) : RefusesByMark s (.next t)
  | fault (f : Fault) : RefusesByMark s (.fault f)
  | refuse (c : RefusalCode) : RefusesByMark s (refuse c s)

theorem refusesByMark_event (s t : State) (c : RefusalCode) (h : RefusesByMark s (.refused (.event c t))) :
    t = s.markRefused c := by
  cases h
  rfl

theorem execData_refusesByMark (d : Byte) (s : State) : RefusesByMark s (execData d s) := by
  unfold execData
  split
  · exact .refuse _
  · split
    · exact .fault _
    · split
      · exact .next _
      · exact .refuse _

theorem execRdkey_refusesByMark (s : State) : RefusesByMark s (execRdkey s) := by
  unfold execRdkey
  split
  · split
    · exact .next _
    · exact .refuse _
  all_goals exact .fault _

/-- An admitted command never refuses; `DATA` and `RDKEY` refuse out of range or mode; a refused row always does. -/
theorem exec_refusesByMark (i : Instr) (s : State) : RefusesByMark s (exec i s) := by
  cases i with
  | dsetW => exact .next _
  | dsetR => exact .next _
  | addr a => exact .next _
  | dctrl n b => exact .next _
  | data d => exact execData_refusesByMark d s
  | rdkey => exact execRdkey_refusesByMark s
  | _ => exact .refuse _

theorem transfer_refusesByMark (m : Byte) (s : State) : RefusesByMark s (transfer m s) := by
  unfold transfer
  split
  · exact .refuse _
  · split
    · exact .refuse _
    · exact exec_refusesByMark _ s

/-- An adapter operation refuses before it changes the shadow or sends (R243, R260). -/
theorem commitEdit_refusesByMark (e : ShadowEdit) (after : List Input) (s : State) :
    RefusesByMark s (commitEdit e after s) := by
  unfold commitEdit
  split
  · exact .refuse _
  · split
    · exact .refuse _
    · exact .next _

theorem boardPutc_refusesByMark (p : Params) (ch : Byte) (s : State) : RefusesByMark s (boardPutc p ch s) := by
  unfold boardPutc
  split
  · exact .next _
  · split
    · split
      · exact .next _
      · exact commitEdit_refusesByMark _ _ s
    · split
      · exact commitEdit_refusesByMark _ _ s
      · exact .next _

theorem boardIcon_refusesByMark (f : BitVec 16 → BitVec 16) (id : Nat) (s : State) :
    RefusesByMark s (boardIcon f id s) := by
  unfold boardIcon
  split
  · exact commitEdit_refusesByMark _ _ s
  · exact .refuse _

theorem runOp_refusesByMark (p : Params) (o : HostOp) (s : State) : RefusesByMark s (runOp p o s) := by
  cases o with
  | putc ch => exact boardPutc_refusesByMark p ch s
  | writeCell c ch => exact commitEdit_refusesByMark _ _ s
  | setIcon id => exact boardIcon_refusesByMark _ id s
  | clrIcon id => exact boardIcon_refusesByMark _ id s
  | customGlyph => exact .refuse _
  | _ => exact .next _

theorem csAssert_refusesByMark (s : State) : RefusesByMark s (csAssert s) := by
  unfold csAssert
  split
  · exact .refuse _
  · exact .next _

theorem csDeassert_refusesByMark (s : State) : RefusesByMark s (csDeassert s) := by
  unfold csDeassert
  split
  · exact .next _
  · exact .refuse _

theorem transcribe_refusesByMark (l : List Bool) (s : State) : RefusesByMark s (transcribe l s) := by
  unfold transcribe
  split
  · exact .refuse _
  · exact .next _

/-- An observation never refuses: where it has no value it faults, and the run goes on (R165, R282). -/
theorem observeLit_refusesByMark (g : Fin 8) (j : Fin 16) (s : State) : RefusesByMark s (observeLit g j s) := by
  unfold observeLit
  split <;> exact .next _

theorem observeLevel_refusesByMark (s : State) : RefusesByMark s (observeLevel s) := by
  unfold observeLevel
  split <;> exact .next _

theorem hostMaskKeys_refusesByMark (p : Params) (s : State) : RefusesByMark s (hostMaskKeys p s) := by
  unfold hostMaskKeys
  split
  · exact .next _
  · exact .fault _

theorem hostCountKeys_refusesByMark (p : Params) (s : State) : RefusesByMark s (hostCountKeys p s) := by
  unfold hostCountKeys
  split
  · exact .next _
  all_goals exact .fault _

theorem runInput_refusesByMark (p : Params) (e : Input) (s : State) : RefusesByMark s (runInput p e s) := by
  cases e with
  | csAssert => exact csAssert_refusesByMark s
  | xfer m => exact transfer_refusesByMark m s
  | csDeassert => exact csDeassert_refusesByMark s
  | busXfer b => exact transfer_refusesByMark (flipByte b) s
  | bits l => exact transcribe_refusesByMark l s
  | observeLit g j => exact observeLit_refusesByMark g j s
  | observeLevel => exact observeLevel_refusesByMark s
  | op o => exact runOp_refusesByMark p o s
  | maskKeys => exact hostMaskKeys_refusesByMark p s
  | countKeys => exact hostCountKeys_refusesByMark p s
  | cursorNext => exact .next _
  | cursorHome => exact .next _

/-- A step that refuses an event has taken the first entry of the input and marked the run (R281). -/
theorem stepWith_event (p : Params) (s t : State) (c : RefusalCode) (h : stepWith p s = .refused (.event c t)) :
    ∃ e rest, s.input = e :: rest ∧ t = (s.setInput rest).markRefused c := by
  unfold stepWith at h
  split at h
  · cases h
  · split at h
    · cases h
    · next e rest hin =>
      exact ⟨e, rest, hin, refusesByMark_event _ t c (h ▸ runInput_refusesByMark p e (s.setInput rest))⟩

/-- Settles O38, by what a refused event is left with. -/
theorem refusalChangesOnlyTheMark : Obligations.RefusalChangesOnlyTheMark :=
  stepWith_event Config.params

/-! ### Marks and fault codes stay -/

/-- A refused run has no further step (R283). -/
theorem step_of_refused (s : State) (c : RefusalCode) (h : s.refused = some c) :
    step s = .refused (.runRefused c) := by
  rw [step, stepWith, h]

/-- Only an observation's fault touches the recorded codes, and it adds one (R282). -/
theorem hostEffect_keeps_fault (p : Params) (s t : State) (f : FaultCode) (h : HostEffect p s t) (hf : f ∈ s.faults) :
    f ∈ t.faults := by
  cases h with
  | observeFault g => exact (mem_addFault s.faults g f).2 (.inl hf)
  | _ => exact hf

/-- A recorded fault code stands after every step (R283). -/
theorem step_keeps_fault (s t : State) (f : FaultCode) (h : step s = .next t) (hf : f ∈ s.faults) : f ∈ t.faults := by
  obtain rfl | ⟨e, rest, -, heff⟩ := step_effect s t h
  · exact hf
  cases heff with
  | exchange _ m i he hcs hdec hexec => exact (exec_keeps i _ t hexec).faults ▸ hf
  | select he => exact hf
  | deselect he => exact hf
  | host _ hh => exact hostEffect_keeps_fault _ _ t f hh hf

/-- Settles O37: a refused event's state is a marked one, and no step goes on from a mark. -/
theorem refusalsAndFaultsAreSticky : Obligations.RefusalsAndFaultsAreSticky := by
  refine ⟨step_of_refused, fun s t c h => ?_, step_keeps_fault⟩
  obtain ⟨e, rest, -, rfl⟩ := stepWith_event _ s t c h
  exact ⟨rfl, step_of_refused _ c rfl⟩

end Sys2Proof.Machine
end
